-- ==== Sys2Proof/Word.lean ====
section
/-! DEFINITION. The word types of the block (`00_scope.md` R10): a byte, the `u16` of offsets and lines, and the
32-bit command word of `30_encoding.md` R90. Unbounded integers are Lean's `Int`, counts and indexes `Nat`. -/

namespace Sys2Proof

/-- `u8`: a memory byte, a byte register, the `DATA` field. -/
abbrev Byte := BitVec 8

/-- `u16`: a VRAM offset, a pattern index, a scroll value, a raster line, the `ADDR` field. -/
abbrev Half := BitVec 16

/-- One command word (`30_encoding.md` R90). -/
abbrev CmdWord := BitVec 32

/-- Every one of `n` bits set. -/
def allBits (n : Nat) : BitVec n := BitVec.allOnes n

/-- Bit `t` of `x` set; every other bit as it was. -/
def setBit {n : Nat} (x : BitVec n) (t : Nat) : BitVec n := x ||| 1#n <<< t

end Sys2Proof
end

