-- ==== Sys2Proof/Syntax.lean ====
section
/-! DEFINITION. The command set: one constructor per row of `spec/opcode_table.json`, each with the fields
`30_encoding.md` R91 says the command uses, at the widths of R90. A field a command ignores (R96) is no operand of it. -/

namespace Sys2Proof

/-- The commands of the command port (`30_encoding.md` R91, R93). -/
inductive Instr where
  /-- `NOP` (R104). -/
  | nop
  /-- `VRAM_WR offset, value` (R136). -/
  | vramWr (offset : Half) (value : Byte)
  /-- `VRAM_RD offset` (R140). -/
  | vramRd (offset : Half)
  /-- `SPR_WR offset, value` (R183). -/
  | sprWr (offset : Half) (value : Byte)
  /-- `SPR_RD offset` (R184). -/
  | sprRd (offset : Half)
  /-- `PFCTL_WR layer, index, value` (R150). -/
  | pfctlWr (layer : BitVec 4) (index : Half) (value : Byte)
  /-- `MCTL_WR index, value` (R160). -/
  | mctlWr (index : Half) (value : Byte)
  /-- `SPRCTL_WR offset, value` (R176). -/
  | sprctlWr (offset : Half) (value : Byte)
  /-- `SPRBUF_TRIG offset, value` (R179). -/
  | sprbufTrig (offset : Half) (value : Byte)
  /-- `SCAN_TICK line` (R250). -/
  | scanTick (line : Half)
  /-- `STATUS_RD` (R260). -/
  | statusRd
  /-- `FRAME_START` (R261). -/
  | frameStart
  /-- Reserved opcode 0xC (R94). -/
  | reservedC
  /-- Reserved opcode 0xD (R94). -/
  | reservedD
  /-- Reserved opcode 0xE (R94). -/
  | reservedE
  /-- Reserved opcode 0xF (R94). -/
  | reservedF
deriving DecidableEq, Repr

end Sys2Proof
end

