-- ==== Sys2Proof/Decode.lean ====
section
/-! DEFINITION. The decoder and encoder of the 32-bit command word, `{OP[31:28], SEL[27:24], ADDR[23:8], DATA[7:0]}`
(`30_encoding.md` R90, R93). The decoder is total: every word is a command (R93), so it rejects none. -/

namespace Sys2Proof

/-- `OP`, bits 31:28 (R90). -/
def opField (w : CmdWord) : BitVec 4 := w.extractLsb' 28 4

/-- `SEL`, bits 27:24 (R90). -/
def selField (w : CmdWord) : BitVec 4 := w.extractLsb' 24 4

/-- `ADDR`, bits 23:8 (R90). -/
def addrField (w : CmdWord) : Half := w.extractLsb' 8 16

/-- `DATA`, bits 7:0 (R90). -/
def dataField (w : CmdWord) : Byte := w.extractLsb' 0 8

/-- The opcode map of R93: `OP` alone selects the command. -/
def decode (w : CmdWord) : Instr :=
  match (opField w).toNat with
  | 0x0 => .nop
  | 0x1 => .vramWr (addrField w) (dataField w)
  | 0x2 => .vramRd (addrField w)
  | 0x3 => .sprWr (addrField w) (dataField w)
  | 0x4 => .sprRd (addrField w)
  | 0x5 => .pfctlWr (selField w) (addrField w) (dataField w)
  | 0x6 => .mctlWr (addrField w) (dataField w)
  | 0x7 => .sprctlWr (addrField w) (dataField w)
  | 0x8 => .sprbufTrig (addrField w) (dataField w)
  | 0x9 => .scanTick (addrField w)
  | 0xA => .statusRd
  | 0xB => .frameStart
  | 0xC => .reservedC
  | 0xD => .reservedD
  | 0xE => .reservedE
  | _ => .reservedF

/-- The word `(OP << 28) | (SEL << 24) | (ADDR << 8) | DATA` of R106. -/
def packWord (op sel : BitVec 4) (addr : Half) (data : Byte) : CmdWord := op ++ sel ++ addr ++ data

/-- The word of a command, the fields it does not use written as zero (R96, R106). -/
def encode : Instr → CmdWord
  | .nop => packWord 0x0 0 0 0
  | .vramWr offset value => packWord 0x1 0 offset value
  | .vramRd offset => packWord 0x2 0 offset 0
  | .sprWr offset value => packWord 0x3 0 offset value
  | .sprRd offset => packWord 0x4 0 offset 0
  | .pfctlWr layer index value => packWord 0x5 layer index value
  | .mctlWr index value => packWord 0x6 0 index value
  | .sprctlWr offset value => packWord 0x7 0 offset value
  | .sprbufTrig offset value => packWord 0x8 0 offset value
  | .scanTick line => packWord 0x9 0 line 0
  | .statusRd => packWord 0xA 0 0 0
  | .frameStart => packWord 0xB 0 0 0
  | .reservedC => packWord 0xC 0 0 0
  | .reservedD => packWord 0xD 0 0 0
  | .reservedE => packWord 0xE 0 0 0
  | .reservedF => packWord 0xF 0 0 0

/-- The instruction whose bits are `w`, numbered as `spec/opcode_table.json` numbers them. A command is one 32-bit
word (R90, R105), so a table row of more bits is no command; of fewer, its upper bits are zero. -/
def decodeTableWord (nbits w : Nat) : Option Instr :=
  if nbits ≤ 32 then some (decode (BitVec.ofNat 32 (w % 2 ^ nbits))) else none

end Sys2Proof
end

