-- ==== Sys2Proof/Config.lean ====
section
/-! DEFINITION. The configuration record `Cfg` of `00_scope.md` R7 to R9: what a board fixes for the life of a machine.
A field R9 marks OPEN has no value here: at reset it is an opaque constant, so no proof can see what it is, and a
statement about every state holds for every value. A field with a default carries that default at reset and may be
overridden in a state. The pattern ROMs are held as plain data: a table lists the non-zero pens, and every function
R36 allows is such a table (log entry 2). -/

namespace Sys2Proof

/-- `Cfg.SPRITECHIP`: which of the two sprite chips is fitted (R9; `44_sprite_control.md` R181). -/
inductive SpriteChip where
  /-- Chip 0: the trigger port swaps, the live RAM is kept, `sprctl[0]` is the list length. -/
  | zero
  /-- Chip 1: sprite control offset 8 swaps and clears, the list is always 256 records. -/
  | one
deriving DecidableEq, Repr, Inhabited

/-- The four interrupt request sources (`60_exceptions.md` R276). -/
inductive IrqSource where
  | vblank
  | spriteBufferComplete
  | raster
  | endOfVblank
deriving DecidableEq, Repr, Inhabited

/-- `Cfg.VectorOf`: the vector index of each source, relative to the base (R9, `60_exceptions.md` R279). -/
structure VectorTable where
  vblank : Int
  spriteBufferComplete : Int
  raster : Int
  endOfVblank : Int
deriving DecidableEq, Repr, Inhabited

/-- `Cfg.BOARD_MAP`: which CPU-side address map the board uses (R9, `20_memory.md` R68). No rule reads it. -/
inductive BoardMap where
  | standard
  | lethalThunder
deriving DecidableEq, Repr, Inhabited

/-- `Cfg.VBLANK_BIT`: where the CPU-side input port shows the vblank flag (R9). No rule reads it. -/
structure VblankBit where
  position : Nat
  activeHigh : Bool
deriving DecidableEq, Repr, Inhabited

/-- The configuration record of R9, one field per row of its table. -/
structure Cfg where
  /-- `SPRITECHIP`, OPEN. -/
  spriteChip : SpriteChip
  /-- `RASTER_ENABLE`, OPEN. -/
  rasterEnable : Bool
  /-- `QUIRK_EOVB_250`, default false. -/
  quirkEovb250 : Bool
  /-- `SPEEDUP`, default false. -/
  speedup : Bool
  /-- `IRQ_VECTOR_BASE`, OPEN. -/
  irqVectorBase : Int
  /-- `VectorOf`, OPEN. -/
  vectorOf : VectorTable
  /-- `VIS_TOP`, default 8. -/
  visTop : Nat
  /-- `VIS_END`, default 248. -/
  visEnd : Nat
  /-- `VIS_LEFT`, default 80. -/
  visLeft : Nat
  /-- `VIS_RIGHT`, default 399, inclusive. -/
  visRight : Nat
  /-- `SPR_COL_STRIDE`, default 8. -/
  sprColStride : Int
  /-- `TileRom`, OPEN: pen of (pattern, row, column) at key `pattern * 64 + row * 8 + column`; an unlisted key is pen 0. -/
  tileRom : List (Nat × BitVec 4)
  /-- `SprRom`, OPEN: pen of (pattern, row, column) at key `pattern * 256 + row * 16 + column`; an unlisted key is pen 0. -/
  sprRom : List (Nat × BitVec 4)
  /-- `BOARD_MAP`, OPEN. -/
  boardMap : BoardMap
  /-- `VBLANK_BIT`, OPEN. -/
  vblankBit : VblankBit
deriving DecidableEq, Repr

/-- The constraint R9 puts on every configuration: `0 <= VIS_TOP <= VIS_END <= 256` and
`0 <= VIS_LEFT <= VIS_RIGHT <= 511`. -/
def Cfg.wf (c : Cfg) : Bool :=
  decide (c.visTop ≤ c.visEnd) && decide (c.visEnd ≤ 256) &&
    decide (c.visLeft ≤ c.visRight) && decide (c.visRight ≤ 511)

/-- The board's sprite chip: OPEN in R9, so opaque. -/
opaque Config.spriteChip : SpriteChip
/-- The board's raster support: OPEN in R9, so opaque. -/
opaque Config.rasterEnable : Bool
/-- The board's vector base: OPEN in R9, so opaque. -/
opaque Config.irqVectorBase : Int
/-- The board's vector indexes: OPEN in R9, so opaque. -/
opaque Config.vectorOf : VectorTable
/-- The contents of the tile pattern ROM: OPEN in R9, so opaque. -/
opaque Config.tileRom : List (Nat × BitVec 4)
/-- The contents of the sprite pattern ROM: OPEN in R9, so opaque. -/
opaque Config.sprRom : List (Nat × BitVec 4)
/-- The board's address map: OPEN in R9, so opaque. -/
opaque Config.boardMap : BoardMap
/-- The board's vblank bit: OPEN in R9, so opaque. -/
opaque Config.vblankBit : VblankBit

/-- The configuration of the machine that `State.reset` is: R9's defaults, and an opaque constant for every field R9
leaves OPEN (log entry 1). -/
def Config.board : Cfg where
  spriteChip := Config.spriteChip
  rasterEnable := Config.rasterEnable
  quirkEovb250 := false
  speedup := false
  irqVectorBase := Config.irqVectorBase
  vectorOf := Config.vectorOf
  visTop := 8
  visEnd := 248
  visLeft := 80
  visRight := 399
  sprColStride := 8
  tileRom := Config.tileRom
  sprRom := Config.sprRom
  boardMap := Config.boardMap
  vblankBit := Config.vblankBit

end Sys2Proof
end

