-- ==== Sys2Proof/Machine/State.lean ====
section
/-! DEFINITION. The state of the block: every component of `10_state.md` R20, the configuration it runs under
(`00_scope.md` R7), and the model's own two fields for the command port: the events waiting at it, and the `Output` of
the latest step (`00_scope.md` R15). Plain data throughout. -/

namespace Sys2Proof.Machine

/-- Sparse contents of an address space, as (address, value) pairs. Canonical when the addresses rise strictly and no
entry equals what an unlisted address reads as (`Cells.wf`). -/
abbrev Cells (α : Type) := List (Nat × α)

/-- A byte memory: an unlisted address reads 0x00, the reset contents of R42. -/
abbrev Memory := List Host.Cell

/-- The three playfields (`00_scope.md` R17), index 0, 1, 2. -/
inductive Playfield where
  | pf1
  | pf2
  | pf3
deriving DecidableEq, Repr

/-- One value per playfield. -/
structure PerPf (α : Type) where
  pf1 : α
  pf2 : α
  pf3 : α
deriving DecidableEq, Repr

/-- The logical tilemap layers of `10_state.md` R38. -/
inductive Layer where
  /-- Playfield 1, narrow. -/
  | pf1n
  /-- Playfield 1, wide. -/
  | pf1w
  /-- Playfield 2, narrow: its only layer. -/
  | pf2n
  /-- Playfield 3, narrow. -/
  | pf3n
  /-- Playfield 3, wide. -/
  | pf3w
  /-- The "high" layer of the speed-up path; exists only under `Cfg.SPEEDUP`. -/
  | pf1h
deriving DecidableEq, Repr

/-- One value per layer. -/
structure PerLayer (α : Type) where
  pf1n : α
  pf1w : α
  pf2n : α
  pf3n : α
  pf3w : α
  pf1h : α
deriving DecidableEq, Repr

/-- The two decode variants (`40_tile_decode.md` R122 to R124). -/
inductive Variant where
  | a
  | b
deriving DecidableEq, Repr

/-- `PrioClass` of `10_state.md` R44. No decode gives `fullAbove`. -/
inductive PrioClass where
  | normal
  | splitTop8Pens
  | fullAbove
  | fullAboveAlt
deriving DecidableEq, Repr

/-- `TileEntry` of `10_state.md` R44. -/
structure TileEntry where
  patternIndex : BitVec 16
  paletteId : BitVec 6
  priorityClass : PrioClass
  flipX : Bool
  flipY : Bool
deriving DecidableEq, Repr

/-- `SpriteRecord` of `10_state.md` R45: never stored, the decode of 8 bytes of `spr_buf`. -/
structure SpriteRecord where
  y : BitVec 9
  x : BitVec 9
  patternBase : BitVec 16
  paletteId : BitVec 6
  flipX : Bool
  flipY : Bool
  /-- 1, 2, 4 or 8. -/
  xCells : Nat
  /-- 1, 2, 4 or 8. -/
  yCells : Nat
  priorityAboveAll : Bool
deriving DecidableEq, Repr

/-- The operands of one `BLIT_CELL` (`46_sprite_engine.md` R235), its clip rectangle apart. -/
structure Blit where
  pattern : BitVec 16
  paletteId : BitVec 6
  flipX : Bool
  flipY : Bool
  x : Int
  y : Int
deriving DecidableEq, Repr

/-- `Pixel` of `00_scope.md` R13: `{kind[1:0], pal[5:0], pen[3:0]}`; kind 0 background, 1 tile, 2 sprite. -/
structure Pixel where
  kind : BitVec 2
  pal : BitVec 6
  pen : BitVec 4
deriving DecidableEq, Repr

/-- `BG`, the background pixel: all zero (R13). -/
def Pixel.bg : Pixel := { kind := 0, pal := 0, pen := 0 }

/-- The latched LayerControl `lc[p]` of `10_state.md` R28. -/
structure LayerControl where
  ptr : Half
  wide : Bool
  enabled : Bool
  rowscroll : Bool
deriving DecidableEq, Repr

/-- `RasterState` of `10_state.md` R25. -/
structure RasterState where
  vblankFlag : Bool
  rasterMachineActive : Bool
  lastRedrawnLine : Half
  currentScanline : Half
deriving DecidableEq, Repr

/-- One dirty bit per tile of each layer (`10_state.md` R38): 4096 for a narrow layer, 8192 for a wide one. -/
structure DirtyBits where
  pf1n : BitVec 4096
  pf1w : BitVec 8192
  pf2n : BitVec 4096
  pf3n : BitVec 4096
  pf3w : BitVec 8192
  pf1h : BitVec 4096
deriving DecidableEq, Repr

/-- `rsrows[L]` of `10_state.md` R40: how many rows of `rsx` are in force. -/
inductive RowCount where
  | one
  | all512
deriving DecidableEq, Repr

/-- The resolved scroll state of a layer (`10_state.md` R40). -/
structure ResolvedScroll where
  rows : RowCount
  /-- `rsx[L][r]`, r in 0 to 511; an unlisted row is 0, its reset value. -/
  x : Cells Half
  y : Half
deriving DecidableEq, Repr

/-- The result of `LayerSample` (`45_partial_refresh.md` R203): the tile and the pen shown. -/
structure Sample where
  tile : TileEntry
  pen : BitVec 4
deriving DecidableEq, Repr

/-- The two draw passes of a playfield (`00_scope.md` R17). -/
inductive Pass where
  | back
  | front
deriving DecidableEq, Repr

/-- A clip rectangle of framebuffer positions, both upper bounds exclusive. -/
structure Clip where
  rowLo : Nat
  rowHi : Nat
  colLo : Nat
  colHi : Nat
deriving DecidableEq, Repr

/-- What the driver outside the block can present at the command port (`70_reset_and_hazards.md` R336): a command
word, or the `RESET` pin asserted between two commands. -/
inductive PortEvent where
  | command (w : CmdWord)
  | reset
deriving DecidableEq, Repr

/-- `Output` of `00_scope.md` R15: what one step gives back to the driver. -/
structure Output where
  irqs : List IrqSource
  response : Option Byte
  warn : Bool
deriving DecidableEq, Repr

/-- The output of a step that has raised, answered and warned nothing. -/
def Output.none : Output := { irqs := [], response := Option.none, warn := false }

/-- Why a step could stop with a fault. There is no such reason: "No command and no micro-operation of this block can
fault" (`60_exceptions.md` R270), every access is in range or a silent no-op (R274), so the type has no constructor. -/
inductive Fault where
deriving DecidableEq, Repr

/-- Why a step could be refused. -/
inductive Refusal where
  /-- Raised by an arm of `exec` whose command has no meaning yet. No arm does. Safe: the machine stops. -/
  | notModelled (mnemonic : String)
deriving DecidableEq, Repr

/-- The state of the machine. -/
structure State where
  /-- `Cfg`, constant for the life of a machine (`00_scope.md` R7). -/
  cfg : Cfg
  /-- VRAM, 0x10000 bytes (R34). -/
  vram : Memory
  /-- Live sprite RAM, 0x800 bytes (R32). -/
  sprLive : Memory
  /-- Rendered sprite RAM, 0x800 bytes (R33). -/
  sprBuf : Memory
  /-- The playfield control blocks, 3 x 8 byte registers (R21). -/
  pfctl : PerPf (Vector Byte 8)
  /-- The master control bank, 8 byte registers (R27). -/
  mctl : Vector Byte 8
  /-- The sprite control bank, 9 byte registers (R30). -/
  sprctl : Vector Byte 9
  /-- The latched layer controls (R28). -/
  lc : PerPf LayerControl
  /-- The raster trigger line, -128 to 65407 (R29). -/
  rasterIrqLine : Int
  /-- RasterState (R25). -/
  rs : RasterState
  /-- The tile caches (R38); an unlisted tile holds the reset entry. -/
  cache : PerLayer (Cells TileEntry)
  /-- The dirty bits (R38). -/
  dirty : DirtyBits
  /-- The resolved scroll state (R40). -/
  scroll : PerLayer ResolvedScroll
  /-- The framebuffer, 512 x 512 pixels, row `y` column `x` at key `512 * y + x` (R35); an unlisted pixel is `BG`. -/
  fb : Cells Pixel
  /-- The sticky configuration warning (R26). -/
  warnRasterCfg : Bool
  /-- The model's own: the events waiting at the command port, the next one first (log entry 3). -/
  port : List PortEvent
  /-- The model's own: the `Output` of the latest step (log entry 4). -/
  out : Output
deriving DecidableEq, Repr

/-- The entry a tile cache holds after reset: `{0, 0, Normal, false, false}` (R42). -/
def TileEntry.zero : TileEntry :=
  { patternIndex := 0, paletteId := 0, priorityClass := .normal, flipX := false, flipY := false }

/-- `lc[p]` after reset: the decode of `mctl[2p]` = 0 (R42). -/
def LayerControl.reset : LayerControl := { ptr := 0x0000, wide := false, enabled := true, rowscroll := false }

/-- `{false, false, 0, 0}`: RasterState at the top of each video frame (R25) and after reset (R42). -/
def RasterState.top : RasterState :=
  { vblankFlag := false, rasterMachineActive := false, lastRedrawnLine := 0, currentScanline := 0 }

/-- Every dirty bit true, as after reset (R42). -/
def DirtyBits.all : DirtyBits :=
  { pf1n := allBits 4096, pf1w := allBits 8192, pf2n := allBits 4096,
    pf3n := allBits 4096, pf3w := allBits 8192, pf1h := allBits 4096 }

/-- `rsrows`, `rsx`, `rsy` of a layer after reset: 1, 0, 0 (R42). -/
def ResolvedScroll.reset : ResolvedScroll := { rows := .one, x := [], y := 0 }

/-- The same value for every playfield. -/
def PerPf.const {α : Type} (v : α) : PerPf α := { pf1 := v, pf2 := v, pf3 := v }

/-- The same value for every layer. -/
def PerLayer.const {α : Type} (v : α) : PerLayer α :=
  { pf1n := v, pf1w := v, pf2n := v, pf3n := v, pf3w := v, pf1h := v }

/-- The reset state of `10_state.md` R42 under configuration `cfg`, with nothing waiting at the port. -/
def State.resetWith (cfg : Cfg) : State where
  cfg := cfg
  vram := []
  sprLive := []
  sprBuf := []
  pfctl := PerPf.const (Vector.replicate 8 0)
  mctl := Vector.replicate 8 0
  sprctl := Vector.replicate 9 0
  lc := PerPf.const LayerControl.reset
  rasterIrqLine := -128
  rs := RasterState.top
  cache := PerLayer.const []
  dirty := DirtyBits.all
  scroll := PerLayer.const ResolvedScroll.reset
  fb := []
  warnRasterCfg := false
  port := []
  out := Output.none

/-- The machine right after `RESET` (`70_reset_and_hazards.md` R300), on the board of `Config.board`. -/
def State.reset : State := State.resetWith Config.board

end Sys2Proof.Machine
end

