-- ==== Sys2Proof/Machine/Ops.lean ====
section
/-! DEFINITION. The named operations over memories, registers and outputs that every command is written with: sparse
contents, one accessor per component, the framebuffer paint, the request, response and warning of `00_scope.md` R14,
the sprite swap, `RESET`, and the presentation of an event at the command port. -/

namespace Sys2Proof.Machine

/-! ## Sparse contents -/

/-- What address `a` reads as; an unlisted address reads `d`. -/
def Cells.get {α : Type} (d : α) : Cells α → Nat → α
  | [], _ => d
  | (k, v) :: m, a => if k = a then v else Cells.get d m a

/-- The addresses rise strictly, the first at least `lo`. -/
def Cells.risingFrom {α : Type} : Nat → Cells α → Bool
  | _, [] => true
  | lo, (k, _) :: m => decide (lo ≤ k) && Cells.risingFrom (k + 1) m

/-- The canonical form of contents of `size` addresses: addresses strictly rising and below `size`, and no entry equal
to what an unlisted address reads as. -/
def Cells.wf {α : Type} [DecidableEq α] (d : α) (size : Nat) (m : Cells α) : Bool :=
  Cells.risingFrom 0 m && m.all (fun c => decide (c.1 < size) && decide (c.2 ≠ d))

/-- Put `v` at `k` before contents that all lie above `k`; a value that an unlisted address reads as is not listed. -/
def Cells.put {α : Type} [DecidableEq α] (d : α) (k : Nat) (v : α) (m : Cells α) : Cells α :=
  if v = d then m else (k, v) :: m

/-- What address `k` reads as in contents that all lie at `k` or above. -/
def Cells.headAt {α : Type} (d : α) (k : Nat) : Cells α → α
  | [] => d
  | (a, v) :: _ => if a = k then v else d

/-- Contents that all lie at `k` or above, without the entry of `k`. -/
def Cells.dropAt {α : Type} (k : Nat) : Cells α → Cells α
  | [] => []
  | (a, v) :: m => if a = k then m else (a, v) :: m

/-- Change every address of a strictly rising list from its old value `v` to `f a v`, in one pass over the contents. -/
def Cells.update {α : Type} [DecidableEq α] (d : α) (f : Nat → α → α) : List Nat → Cells α → Cells α
  | [], m => m
  | k :: ks, m =>
    let rest := m.dropWhile (fun c => decide (c.1 < k))
    m.takeWhile (fun c => decide (c.1 < k)) ++
      Cells.put d k (f k (Cells.headAt d k rest)) (Cells.update d f ks (Cells.dropAt k rest))

/-- Write one address. -/
def Cells.set {α : Type} [DecidableEq α] (d : α) (m : Cells α) (a : Nat) (v : α) : Cells α :=
  Cells.update d (fun _ _ => v) [a] m

/-- The byte at address `a`. -/
def Memory.read (m : Memory) (a : Nat) : Byte := Cells.get (0 : Byte) m a

/-- Write the byte at address `a`. -/
def Memory.write (m : Memory) (a : Nat) (v : Byte) : Memory := Cells.set (0 : Byte) m a v

/-- The memory is in canonical form and lists no address outside its `size` bytes. -/
def Memory.wf (size : Nat) (m : Memory) : Bool := Cells.wf (0 : Byte) size m

/-- Size of VRAM (`00_scope.md` R8). -/
def vramSize : Nat := 0x10000

/-- Size of each sprite RAM copy (R8). -/
def sprSize : Nat := 0x800

/-! ## One value per playfield or layer -/

/-- The value of playfield `p`. -/
def PerPf.get {α : Type} (t : PerPf α) : Playfield → α
  | .pf1 => t.pf1
  | .pf2 => t.pf2
  | .pf3 => t.pf3

/-- Replace the value of playfield `p`. -/
def PerPf.set {α : Type} (t : PerPf α) (p : Playfield) (v : α) : PerPf α :=
  match p with
  | .pf1 => { t with pf1 := v }
  | .pf2 => { t with pf2 := v }
  | .pf3 => { t with pf3 := v }

/-- The value of layer `L`. -/
def PerLayer.get {α : Type} (t : PerLayer α) : Layer → α
  | .pf1n => t.pf1n
  | .pf1w => t.pf1w
  | .pf2n => t.pf2n
  | .pf3n => t.pf3n
  | .pf3w => t.pf3w
  | .pf1h => t.pf1h

/-- Replace the value of layer `L`. -/
def PerLayer.set {α : Type} (t : PerLayer α) (L : Layer) (v : α) : PerLayer α :=
  match L with
  | .pf1n => { t with pf1n := v }
  | .pf1w => { t with pf1w := v }
  | .pf2n => { t with pf2n := v }
  | .pf3n => { t with pf3n := v }
  | .pf3w => { t with pf3w := v }
  | .pf1h => { t with pf1h := v }

/-! ## Memories -/

/-- `vram[a]` (R11). Offsets are `u16`, so offset arithmetic wraps modulo 0x10000 (`20_memory.md` R64). -/
def State.vramByte (s : State) (a : Half) : Byte := Memory.read s.vram a.toNat

/-- `vram[a] <- v`. -/
def State.setVramByte (s : State) (a : Half) (v : Byte) : State :=
  { s with vram := Memory.write s.vram a.toNat v }

/-- `spr_live[a]`, `a` in 0 to 0x7FF. -/
def State.sprLiveByte (s : State) (a : Nat) : Byte := Memory.read s.sprLive a

/-- `spr_live[a] <- v`. -/
def State.setSprLiveByte (s : State) (a : Nat) (v : Byte) : State :=
  { s with sprLive := Memory.write s.sprLive a v }

/-- `spr_buf[a]`, `a` in 0 to 0x7FF. -/
def State.sprBufByte (s : State) (a : Nat) : Byte := Memory.read s.sprBuf a

/-- The tile ROM, `Cfg.TileRom(p, px, py)` (`10_state.md` R36). -/
def tilePen (c : Cfg) (pattern : BitVec 16) (px py : Nat) : BitVec 4 :=
  Cells.get (0 : BitVec 4) c.tileRom (pattern.toNat * 64 + py * 8 + px)

/-- The sprite ROM, `Cfg.SprRom(p, px, py)` (`10_state.md` R36). -/
def spritePen (c : Cfg) (pattern : BitVec 16) (px py : Nat) : BitVec 4 :=
  Cells.get (0 : BitVec 4) c.sprRom (pattern.toNat * 256 + py * 16 + px)

/-! ## Registers -/

/-- `pfctl[p][i]`, `i` in 0 to 7 (`10_state.md` R21). -/
def State.pfReg (s : State) (p : Playfield) (i : Fin 8) : Byte := (s.pfctl.get p)[i]

/-- `pfctl[p][i] <- v`. -/
def State.setPfReg (s : State) (p : Playfield) (i : Fin 8) (v : Byte) : State :=
  { s with pfctl := s.pfctl.set p ((s.pfctl.get p).set i v) }

/-- `mctl[i]`, `i` in 0 to 7 (`10_state.md` R27). -/
def State.masterReg (s : State) (i : Fin 8) : Byte := s.mctl[i]

/-- `mctl[i] <- v`. -/
def State.setMasterReg (s : State) (i : Fin 8) (v : Byte) : State := { s with mctl := s.mctl.set i v }

/-- `sprctl[i]`, `i` in 0 to 8 (`10_state.md` R30). -/
def State.spriteReg (s : State) (i : Fin 9) : Byte := s.sprctl[i]

/-- `sprctl[i] <- v`. -/
def State.setSpriteReg (s : State) (i : Fin 9) (v : Byte) : State := { s with sprctl := s.sprctl.set i v }

/-- `lc[p]` (`10_state.md` R28). -/
def State.layerCtl (s : State) (p : Playfield) : LayerControl := s.lc.get p

/-- `lc[p] <- c`. -/
def State.setLayerCtl (s : State) (p : Playfield) (c : LayerControl) : State := { s with lc := s.lc.set p c }

/-! ## Framebuffer -/

/-- The key of the pixel at row `y`, column `x`: the framebuffer is 512 x 512 (`10_state.md` R35). -/
def fbKey (y x : Nat) : Nat := 512 * y + x

/-- `fb[y][x]` of given framebuffer contents. -/
def fbPixel (fb : Cells Pixel) (y x : Nat) : Pixel := Cells.get Pixel.bg fb (fbKey y x)

/-- `fb[y][x]` (R11). -/
def State.pixel (s : State) (y x : Nat) : Pixel := fbPixel s.fb y x

/-- The framebuffer contents are canonical: 512 x 512 pixels, and no listed pixel is `BG`. -/
def fbWf (fb : Cells Pixel) : Bool := Cells.wf Pixel.bg (512 * 512) fb

/-- The framebuffer position (column `x`, row `y`) lies in the rectangle. -/
def Clip.contains (c : Clip) (x y : Nat) : Bool :=
  decide (c.rowLo ≤ y) && decide (y < c.rowHi) && decide (c.colLo ≤ x) && decide (x < c.colHi)

/-- The positions of both rectangles. -/
def Clip.inter (c e : Clip) : Clip where
  rowLo := max c.rowLo e.rowLo
  rowHi := min c.rowHi e.rowHi
  colLo := max c.colLo e.colLo
  colHi := min c.colHi e.colHi

/-- The keys of a rectangle, row by row. -/
def Clip.keys (c : Clip) : List Nat :=
  (List.range' c.rowLo (c.rowHi - c.rowLo)).flatMap fun y =>
    (List.range' c.colLo (c.colHi - c.colLo)).map fun x => fbKey y x

/-- Write, at every position (x, y) of the rectangle where `f x y` gives a pixel, that pixel; leave the others. -/
def paint (c : Clip) (f : Nat → Nat → Option Pixel) (fb : Cells Pixel) : Cells Pixel :=
  Cells.update Pixel.bg (fun k old => (f (k % 512) (k / 512)).getD old) c.keys fb

/-! ## Requests, responses, warnings (`00_scope.md` R14) -/

/-- `RAISE_IRQ(src)` (`60_exceptions.md` R275): append the request to the step's output. It saves, masks and redirects
nothing (R280). -/
def State.raiseIrq (s : State) (src : IrqSource) : State :=
  { s with out := { s.out with irqs := s.out.irqs ++ [src] } }

/-- `respond(v)`. -/
def State.respond (s : State) (v : Byte) : State := { s with out := { s.out with response := some v } }

/-- `warn()`: the sticky flag and the pulse (`43_master_control.md` R167). -/
def State.warn (s : State) : State := { s with warnRasterCfg := true, out := { s.out with warn := true } }

/-- The 2-bit code of a request source in a trace (`30_encoding.md` R108). -/
def irqCode : IrqSource → BitVec 2
  | .vblank => 0
  | .spriteBufferComplete => 1
  | .raster => 2
  | .endOfVblank => 3

/-- `Cfg.VectorOf(src)`. -/
def vectorIndex (t : VectorTable) : IrqSource → Int
  | .vblank => t.vblank
  | .spriteBufferComplete => t.spriteBufferComplete
  | .raster => t.raster
  | .endOfVblank => t.endOfVblank

/-- The vector number the CPU sees for a request (`60_exceptions.md` R279). -/
def irqVector (c : Cfg) (src : IrqSource) : Int := c.irqVectorBase + vectorIndex c.vectorOf src

/-- The 12 bits of a pixel (R13). -/
def Pixel.bits (p : Pixel) : BitVec 12 := p.kind ++ p.pal ++ p.pen

/-! ## Whole-machine operations -/

/-- `SPRITE_SWAP(clear)` (`44_sprite_control.md` R180): copy all of `spr_live` into `spr_buf`, clear `spr_live` if
asked, raise `SPRITE_BUFFER_COMPLETE_IRQ`. -/
def spriteSwap (clear : Bool) (s : State) : State :=
  let copied := { s with sprBuf := s.sprLive }
  let cleared := if clear then { copied with sprLive := [] } else copied
  cleared.raiseIrq .spriteBufferComplete

/-- `RESET` (`70_reset_and_hazards.md` R300): every component at its reset value whatever it was, no output, `Cfg`
unchanged. The events still waiting at the port are the driver's and stay. -/
def resetPin (s : State) : State := { State.resetWith s.cfg with port := s.port }

/-- Take the first event off the port and begin a command with an empty output (`00_scope.md` R15). -/
def State.beginCommand (s : State) (rest : List PortEvent) : State := { s with port := rest, out := Output.none }

/-- The command word `w` presented at the port before everything that waits there. -/
def State.present (s : State) (w : CmdWord) : State := { s with port := .command w :: s.port }

end Sys2Proof.Machine
end

