-- ==== Sys2Proof/Machine/Operands.lean ====
section
/-! DEFINITION. Every value the block assembles from bytes, registers and operands (`30_encoding.md` R98 to R102):
descriptor decodes, addresses of the internal fetches, scroll values, layer-select fields, the raster line, the
sprite-list length and the clipped band. -/

namespace Sys2Proof.Machine

/-! ## Playfields and layers -/

/-- The playfield a `PFCTL_WR` selector names: 0 = pf1, 1 = pf2, 2 = pf3 (`30_encoding.md` R91); none from 3 up. -/
def playfieldOfSel (sel : BitVec 4) : Option Playfield :=
  match sel.toNat with
  | 0 => some .pf1
  | 1 => some .pf2
  | 2 => some .pf3
  | _ => none

/-- A register index below 8, or none (R95: the offset is compared whole, there are no mirrors). -/
def reg8OfIndex (index : Half) : Option (Fin 8) := if h : index.toNat < 8 then some ⟨index.toNat, h⟩ else none

/-- A sprite control offset below 9, or none (R95). -/
def reg9OfOffset (offset : Half) : Option (Fin 9) := if h : offset.toNat < 9 then some ⟨offset.toNat, h⟩ else none

/-- The playfield a layer belongs to (`10_state.md` R38). -/
def Layer.playfield : Layer → Playfield
  | .pf1n => .pf1
  | .pf1w => .pf1
  | .pf2n => .pf2
  | .pf3n => .pf3
  | .pf3w => .pf3
  | .pf1h => .pf1

/-- The layer is 128 tiles wide (R38). -/
def Layer.isWide : Layer → Bool
  | .pf1n => false
  | .pf1w => true
  | .pf2n => false
  | .pf3n => false
  | .pf3w => true
  | .pf1h => false

/-- The number of tiles of a layer (R38). -/
def Layer.tiles (L : Layer) : Nat := if L.isWide then 8192 else 4096

/-- The width of a layer in pixels (R38). -/
def Layer.width (L : Layer) : Nat := if L.isWide then 1024 else 512

/-- `COLS(L)`, the tiles in a row (`40_tile_decode.md` R120). -/
def Layer.cols (L : Layer) : Nat := if L.isWide then 128 else 64

/-- The window mask `WM(L)` (R38). -/
def Layer.windowMask (L : Layer) : Half := if L.isWide then 0x7FFF else 0x3FFF

/-- The decode variant of a layer (`40_tile_decode.md` R124). -/
def Layer.variant : Layer → Variant
  | .pf1n => .a
  | .pf1w => .a
  | .pf2n => .a
  | .pf3n => .b
  | .pf3w => .b
  | .pf1h => .a

/-- `Narrow(p)` (`41_vram_access.md` R137). -/
def Playfield.narrow : Playfield → Layer
  | .pf1 => .pf1n
  | .pf2 => .pf2n
  | .pf3 => .pf3n

/-- `Wide(p)`; playfield 2 has none (R137). -/
def Playfield.wide : Playfield → Option Layer
  | .pf1 => some .pf1w
  | .pf2 => none
  | .pf3 => some .pf3w

/-- The layers that exist: `pf1h` only under `Cfg.SPEEDUP` (R38). -/
def existingLayers (c : Cfg) : List Layer :=
  [.pf1n, .pf1w, .pf2n, .pf3n, .pf3w] ++ (if c.speedup then [.pf1h] else [])

/-- `ActiveLayer(p)`, the layer a playfield draws through (`10_state.md` R39). -/
def State.activeLayer (s : State) : Playfield → Layer
  | .pf1 =>
    if s.cfg.speedup && (s.layerCtl .pf1).ptr == 0xC000 then .pf1h
    else if (s.layerCtl .pf1).wide then .pf1w else .pf1n
  | .pf2 => .pf2n
  | .pf3 => if (s.layerCtl .pf3).wide then .pf3w else .pf3n

/-! ## Tile entries -/

/-- `Base(L)`: the playfield's bank pointer, or the fixed bank of the high layer (`20_memory.md` R65). -/
def State.layerBase (s : State) (L : Layer) : Half :=
  match L with
  | .pf1h => 0xC000
  | .pf1n => (s.layerCtl .pf1).ptr
  | .pf1w => (s.layerCtl .pf1).ptr
  | .pf2n => (s.layerCtl .pf2).ptr
  | .pf3n => (s.layerCtl .pf3).ptr
  | .pf3w => (s.layerCtl .pf3).ptr

/-- `TileAddr(L, t)`, modulo 0x10000 (`20_memory.md` R65). -/
def State.tileAddr (s : State) (L : Layer) (t : Nat) : Half :=
  s.layerBase L + (BitVec.ofNat 16 (4 * t) &&& L.windowMask)

/-- `PrioA` (`40_tile_decode.md` R122): the test of `flag_byte` bit 0 comes first. -/
def prioA (color flag : Byte) : PrioClass :=
  if flag.getLsbD 0 then .fullAboveAlt else if color.getLsbD 7 then .splitTop8Pens else .normal

/-- `PrioB` (`40_tile_decode.md` R123): `flag_byte` is not read. -/
def prioB (color : Byte) : PrioClass := if color.getLsbD 7 then .splitTop8Pens else .normal

/-- The tile entry four bytes decode to (`30_encoding.md` R98, `40_tile_decode.md` R121). -/
def tileEntryOfBytes (v : Variant) (lo hi color flag : Byte) : TileEntry where
  patternIndex := hi ++ lo
  paletteId := color.extractLsb' 0 6
  priorityClass := match v with
    | .a => prioA color flag
    | .b => prioB color
  flipX := flag.getLsbD 1
  flipY := flag.getLsbD 2

/-- `DECODE_TILE(variant, a)` (`40_tile_decode.md` R121): a pure function of four VRAM bytes. -/
def decodeTile (s : State) (v : Variant) (a : Half) : TileEntry :=
  tileEntryOfBytes v (s.vramByte a) (s.vramByte (a + 1)) (s.vramByte (a + 2)) (s.vramByte (a + 3))

/-- `TilePen(te, u, v)`, `u` and `v` in 0 to 7 (`40_tile_decode.md` R127). -/
def tilePenAt (c : Cfg) (te : TileEntry) (u v : Nat) : BitVec 4 :=
  tilePen c te.patternIndex (if te.flipX then 7 - u else u) (if te.flipY then 7 - v else v)

/-! ## Scroll -/

/-- `scroll_x(p) = {pfctl[p][5], pfctl[p][4]}` (`10_state.md` R22). -/
def State.scrollX (s : State) (p : Playfield) : Half := s.pfReg p 5 ++ s.pfReg p 4

/-- `scroll_y(p) = {pfctl[p][1], pfctl[p][0]}` (`10_state.md` R22). -/
def State.scrollY (s : State) (p : Playfield) : Half := s.pfReg p 1 ++ s.pfReg p 0

/-- `RowTable(p)` (`20_memory.md` R66). -/
def rowTable : Playfield → Half
  | .pf1 => 0xF400
  | .pf2 => 0xF800
  | .pf3 => 0xFC00

/-- `RowEntry(p, r)`, `r` in 0 to 511 (`45_partial_refresh.md` R196). -/
def State.rowEntry (s : State) (p : Playfield) (r : Nat) : Half :=
  s.vramByte (rowTable p + BitVec.ofNat 16 (2 * r + 1)) ++ s.vramByte (rowTable p + BitVec.ofNat 16 (2 * r))

/-- `bias(p)`: 0, -2, -4 (`45_partial_refresh.md` R197). -/
def scrollBias : Playfield → Int
  | .pf1 => 0
  | .pf2 => -2
  | .pf3 => -4

/-- `wideadd(L)`: 256 for a wide layer (R197). -/
def Layer.wideAdd (L : Layer) : Int := if L.isWide then 256 else 0

/-- `ResolveX(L, raw)`: the sum on `int`, truncated to 16 bits (R197). -/
def resolveX (L : Layer) (raw : Half) : Half :=
  BitVec.ofInt 16 ((raw.toNat : Int) + scrollBias L.playfield + L.wideAdd)

/-! ## Master control -/

/-- The bank pointer a layer-select byte gives: `(value & 0x03) * 0x4000` (`43_master_control.md` R163). -/
def bankPtr (value : Byte) : Half := value.extractLsb' 0 2 ++ (0 : BitVec 14)

/-- The raster trigger line of the compare pair: `((high << 8) | low) - 128` on `int` (`43_master_control.md` R166). -/
def rasterLine (high low : Byte) : Int := ((high ++ low : Half).toNat : Int) - 128

/-! ## Dirty marking -/

/-- `bank = offset & 0xC000` (`41_vram_access.md` R137). -/
def bankOf (offset : Half) : Half := offset &&& 0xC000

/-- `(offset & 0x3FFF) div 4` (R137). -/
def narrowIndex (offset : Half) : Nat := (offset &&& 0x3FFF).toNat / 4

/-- `(offset & 0x7FFF) div 4` (R137). -/
def wideIndex (offset : Half) : Nat := (offset &&& 0x7FFF).toNat / 4

/-- `bank = ptr or bank = ptr + 0x4000`, compared on `int` without wrap (R137). -/
def bankMatches (ptr bank : Half) : Bool :=
  bank.toNat == ptr.toNat || bank.toNat == ptr.toNat + 0x4000

/-! ## Sprites -/

/-- The record eight bytes decode to (`30_encoding.md` R99, `46_sprite_engine.md` R232). -/
def spriteOfBytes (b0 b1 b2 b3 b4 b5 b6 b7 : Byte) : SpriteRecord where
  y := (b1 ++ b0 : Half).extractLsb' 0 9
  x := (b7 ++ b6 : Half).extractLsb' 0 9
  patternBase := b3 ++ b2
  paletteId := b4.extractLsb' 0 6
  priorityAboveAll := b4.getLsbD 7
  flipX := b5.getLsbD 0
  flipY := b5.getLsbD 1
  yCells := 2 ^ (b1.extractLsb' 1 2).toNat
  xCells := 2 ^ (b1.extractLsb' 3 2).toNat

/-- `DECODE_SPRITE(offs)` (`46_sprite_engine.md` R232): it reads `spr_buf` only. -/
def decodeSprite (s : State) (offs : Nat) : SpriteRecord :=
  spriteOfBytes (s.sprBufByte offs) (s.sprBufByte (offs + 1)) (s.sprBufByte (offs + 2)) (s.sprBufByte (offs + 3))
    (s.sprBufByte (offs + 4)) (s.sprBufByte (offs + 5)) (s.sprBufByte (offs + 6)) (s.sprBufByte (offs + 7))

/-- `ListStart()`, on `int` (`46_sprite_engine.md` R231). -/
def listStart (s : State) : Int :=
  match s.cfg.spriteChip with
  | .zero => (((0x100 - (s.spriteReg 0).toNat) % 0x100 : Nat) : Int) * 8 - 8
  | .one => 0x7F8

/-- How many records the draw visits: from `ListStart()` down to 0 in steps of 8 (R230, R231). -/
def recordCount (s : State) : Nat := ((listStart s + 8) / 8).toNat

/-! ## Bands -/

/-- The visible lines of a band as `[s, e)` (`45_partial_refresh.md` R191). -/
def clipBand (c : Cfg) (startLine endLine : Int) : Int × Int :=
  (max startLine c.visTop, min endLine c.visEnd)

/-- The render clip rectangle of a non-empty clipped band: rows `s + 128` to `e + 127`, columns `VIS_LEFT` to
`VIS_RIGHT`, inclusive (R192). -/
def bandClip (c : Cfg) (first last : Int) : Clip where
  rowLo := (first + 128).toNat
  rowHi := (last + 128).toNat
  colLo := c.visLeft
  colHi := c.visRight + 1

end Sys2Proof.Machine
end

