-- ==== Sys2Proof/Machine/Flags.lean ====
section
/-! DEFINITION. Every flag computation of the block: the complete list of one-bit flags of `10_state.md` R26 (the raster
flags, the warning, the layer-control flags, the dirty bits), and the per-pixel priority of `45_partial_refresh.md`. -/

namespace Sys2Proof.Machine

/-! ## Dirty bits -/

/-- `dirty[L][t]`; false for a tile the layer does not have. -/
def DirtyBits.get (d : DirtyBits) (L : Layer) (t : Nat) : Bool :=
  match L with
  | .pf1n => d.pf1n.getLsbD t
  | .pf1w => d.pf1w.getLsbD t
  | .pf2n => d.pf2n.getLsbD t
  | .pf3n => d.pf3n.getLsbD t
  | .pf3w => d.pf3w.getLsbD t
  | .pf1h => d.pf1h.getLsbD t

/-- `dirty[L][t] <- true`. -/
def DirtyBits.mark (d : DirtyBits) (L : Layer) (t : Nat) : DirtyBits :=
  match L with
  | .pf1n => { d with pf1n := setBit d.pf1n t }
  | .pf1w => { d with pf1w := setBit d.pf1w t }
  | .pf2n => { d with pf2n := setBit d.pf2n t }
  | .pf3n => { d with pf3n := setBit d.pf3n t }
  | .pf3w => { d with pf3w := setBit d.pf3w t }
  | .pf1h => { d with pf1h := setBit d.pf1h t }

/-- Every dirty bit of layer `L` set. -/
def DirtyBits.markAll (d : DirtyBits) (L : Layer) : DirtyBits :=
  match L with
  | .pf1n => { d with pf1n := allBits 4096 }
  | .pf1w => { d with pf1w := allBits 8192 }
  | .pf2n => { d with pf2n := allBits 4096 }
  | .pf3n => { d with pf3n := allBits 4096 }
  | .pf3w => { d with pf3w := allBits 8192 }
  | .pf1h => { d with pf1h := allBits 4096 }

/-- Every dirty bit of layer `L` cleared. -/
def DirtyBits.clear (d : DirtyBits) (L : Layer) : DirtyBits :=
  match L with
  | .pf1n => { d with pf1n := 0 }
  | .pf1w => { d with pf1w := 0 }
  | .pf2n => { d with pf2n := 0 }
  | .pf3n => { d with pf3n := 0 }
  | .pf3w => { d with pf3w := 0 }
  | .pf1h => { d with pf1h := 0 }

/-- `dirty[L][t]` of a state. -/
def State.isDirty (s : State) (L : Layer) (t : Nat) : Bool := s.dirty.get L t

/-- Set `dirty[L][t]`. -/
def State.markTile (s : State) (L : Layer) (t : Nat) : State := { s with dirty := s.dirty.mark L t }

/-- Set every dirty bit of `L`. -/
def State.markLayer (s : State) (L : Layer) : State := { s with dirty := s.dirty.markAll L }

/-- The part of `MARK_DIRTY` that concerns playfield `p` (`41_vram_access.md` R137, R138): under `Cfg.SPEEDUP` a write
to bank 0xC000 marks the high layer in place of playfield 1's own layers. -/
def markPlayfield (offset : Half) (p : Playfield) (s : State) : State :=
  if s.cfg.speedup && p == .pf1 && bankOf offset == 0xC000 then
    s.markTile .pf1h (narrowIndex offset)
  else if bankMatches (s.layerCtl p).ptr (bankOf offset) then
    let narrowMarked := s.markTile p.narrow (narrowIndex offset)
    match p.wide with
    | some L => narrowMarked.markTile L (wideIndex offset)
    | none => narrowMarked
  else s

/-- `MARK_DIRTY(offset)` (`41_vram_access.md` R137). -/
def markDirty (offset : Half) (s : State) : State :=
  markPlayfield offset .pf3 (markPlayfield offset .pf2 (markPlayfield offset .pf1 s))

/-- `MarkAllDirty(p)` (`43_master_control.md` R165): never the high layer. -/
def markAllDirty (p : Playfield) (s : State) : State :=
  let narrowMarked := s.markLayer p.narrow
  match p.wide with
  | some L => narrowMarked.markLayer L
  | none => narrowMarked

/-! ## Layer-control flags (`43_master_control.md` R163) -/

/-- `lc[p].enabled`: bit 0x10 inverted. -/
def selectEnabled (value : Byte) : Bool := !value.getLsbD 4

/-- `lc[p].rowscroll`: bit 0x40. -/
def selectRowscroll (value : Byte) : Bool := value.getLsbD 6

/-- `lc[p].wide`: bit 0x04; under `Cfg.SPEEDUP` playfield 3 keeps the flag it has. -/
def selectWide (c : Cfg) (p : Playfield) (old : Bool) (value : Byte) : Bool :=
  if p == .pf3 && c.speedup then old else value.getLsbD 2

/-! ## The configuration warning -/

/-- The raster line is one the machine cannot honour: `line >= 128 and not Cfg.RASTER_ENABLE`
(`43_master_control.md` R167). -/
def rasterMismatch (c : Cfg) (line : Int) : Bool := decide (128 ≤ line) && !c.rasterEnable

/-! ## The status byte -/

/-- `{0, 0, 0, 0, 0, 0, 0, rs.vblank_flag}` (`30_encoding.md` R97). -/
def statusByte (vblank : Bool) : Byte := (0 : BitVec 7) ++ BitVec.ofBool vblank

/-! ## The priority of a tile pixel -/

/-- `High(te, pen)` (`45_partial_refresh.md` R204). -/
def isHigh (te : TileEntry) (pen : BitVec 4) : Bool :=
  match te.priorityClass with
  | .normal => false
  | .splitTop8Pens => decide (8 ≤ pen.toNat)
  | .fullAbove => pen != 0
  | .fullAboveAlt => pen != 0

/-- `Drawn(p, pass, te, pen)` (`45_partial_refresh.md` R205): the BACK pass of playfield 3 draws pen 0 too. -/
def isDrawn (p : Playfield) (pass : Pass) (te : TileEntry) (pen : BitVec 4) : Bool :=
  match pass with
  | .front => isHigh te pen
  | .back => !isHigh te pen && (pen != 0 || p == .pf3)

end Sys2Proof.Machine
end

