-- ==== Sys2Proof/Machine/MasterControl.lean ====
section
/-! DEFINITION. The master control register write, command `MCTL_WR` (`43_master_control.md`): layer select with its
dirty marking, and the raster trigger line with its warning. -/

namespace Sys2Proof.Machine

/-- `LayerSelect(p, value)` (R163 to R165): latch the decoded byte; a changed bank pointer marks the playfield's layers
fully dirty. -/
def layerSelect (p : Playfield) (value : Byte) (s : State) : State :=
  let old := s.layerCtl p
  let marked := if bankPtr value != old.ptr then markAllDirty p s else s
  marked.setLayerCtl p
    { ptr := bankPtr value
      wide := selectWide s.cfg p old.wide value
      enabled := selectEnabled value
      rowscroll := selectRowscroll value }

/-- `RasterLine()` and the warning that follows it (R166, R167): both bytes as they stand after the write. -/
def updateRasterLine (s : State) : State :=
  let line := rasterLine (s.masterReg 7) (s.masterReg 6)
  let latched := { s with rasterIrqLine := line }
  if rasterMismatch s.cfg line then latched.warn else latched

/-- The decode effects of a write to register `i` (R160); registers 1, 3 and 5 have none (R161). -/
def masterEffect (i : Fin 8) (value : Byte) (s : State) : State :=
  match i.val with
  | 0 => layerSelect .pf1 value s
  | 2 => layerSelect .pf2 value s
  | 4 => layerSelect .pf3 value s
  | 6 => updateRasterLine s
  | 7 => updateRasterLine s
  | _ => s

/-- `MCTL_WR index, value` (R160): an index above 7 is a silent no-op. -/
def execMctlWr (index : Half) (value : Byte) (s : State) : Host.Outcome State Fault Refusal :=
  .next (match reg8OfIndex index with
    | some i => masterEffect i value (s.setMasterReg i value)
    | none => s)

end Sys2Proof.Machine
end

