-- ==== Sys2Proof/Machine/PfControl.lean ====
section
/-! DEFINITION. The playfield control register write, command `PFCTL_WR` (`42_pf_control.md`). -/

namespace Sys2Proof.Machine

/-- `PFCTL_WR layer, index, value` (R150): store the byte; a layer above 2 or an index above 7 is a silent no-op. -/
def execPfctlWr (layer : BitVec 4) (index : Half) (value : Byte) (s : State) : Host.Outcome State Fault Refusal :=
  .next (match playfieldOfSel layer, reg8OfIndex index with
    | some p, some i => s.setPfReg p i value
    | _, _ => s)

end Sys2Proof.Machine
end

