-- ==== Sys2Proof/Machine/Port.lean ====
section
/-! DEFINITION. The commands without effect: `NOP` (`30_encoding.md` R104) and the four reserved opcodes, which are
accepted and ignored (R94). -/

namespace Sys2Proof.Machine

/-- `NOP` (R104): nothing. -/
def execNop (s : State) : Host.Outcome State Fault Refusal := .next s

/-- Opcode 0xC (R94): accepted, nothing done. -/
def execReservedC (s : State) : Host.Outcome State Fault Refusal := .next s

/-- Opcode 0xD (R94): accepted, nothing done. -/
def execReservedD (s : State) : Host.Outcome State Fault Refusal := .next s

/-- Opcode 0xE (R94): accepted, nothing done. -/
def execReservedE (s : State) : Host.Outcome State Fault Refusal := .next s

/-- Opcode 0xF (R94): accepted, nothing done. -/
def execReservedF (s : State) : Host.Outcome State Fault Refusal := .next s

end Sys2Proof.Machine
end

