-- ==== Sys2Proof/Machine/Sprites.lean ====
section
/-! DEFINITION. The sprite engine, unit `sprite_pattern_fetch_unit` (`46_sprite_engine.md`): the records a draw visits,
the cells of a record in the order it draws them, the pixel a cell writes, and the pass over them. -/

namespace Sys2Proof.Machine

/-- The records the draw visits, from `ListStart()` down to offset 0 (R230, R231, R237). -/
def visitedFrom (s : State) : Nat → List SpriteRecord
  | 0 => []
  | n + 1 => decodeSprite s (8 * n) :: visitedFrom s n

/-- The records of the active list in visiting order, the highest offset first. -/
def visitedRecords (s : State) : List SpriteRecord := visitedFrom s (recordCount s)

/-- A record is on screen unless `x` = 0 or `y` = 0 (R236). -/
def SpriteRecord.onScreen (r : SpriteRecord) : Bool := r.x != 0 && r.y != 0

/-- A record belongs to the pass (R236, R240). -/
def SpriteRecord.inPass (above : Bool) (r : SpriteRecord) : Bool := r.onScreen && r.priorityAboveAll == above

/-- `screen_x = x - 16` (R233). -/
def SpriteRecord.screenX (r : SpriteRecord) : Int := (r.x.toNat : Int) - 16

/-- `screen_y = 512 - 16 - y` (R233). -/
def SpriteRecord.screenY (r : SpriteRecord) : Int := 512 - 16 - (r.y.toNat : Int)

/-- The inner loop of R230: the cells of one column at `x`, from row `j` on, with the running pattern step `step`. -/
def columnBlits (r : SpriteRecord) (x : Int) : Nat → Int → Int → List Blit
  | 0, _, _ => []
  | n + 1, j, step =>
    { pattern := BitVec.ofInt 16 ((r.patternBase.toNat : Int) + step), paletteId := r.paletteId,
      flipX := r.flipX, flipY := r.flipY, x := x, y := r.screenY - 16 * j } ::
      columnBlits r x n (j + 1) (if r.flipY then step + 1 else step - 1)

/-- The outer loop of R230: the columns from column `i` at `x` on. -/
def spriteColumns (c : Cfg) (r : SpriteRecord) : Nat → Int → Int → List Blit
  | 0, _, _ => []
  | n + 1, i, x =>
    columnBlits r x r.yCells 0 (if r.flipY then c.sprColStride * i else c.sprColStride * i + ((r.yCells : Int) - 1)) ++
      spriteColumns c r n (i + 1) (if r.flipX then x - 16 else x + 16)

/-- Every `BLIT_CELL` of one record, in order (R230). -/
def spriteBlits (c : Cfg) (r : SpriteRecord) : List Blit :=
  spriteColumns c r r.xCells 0 (if r.flipX then r.screenX + 16 * ((r.xCells : Int) - 1) else r.screenX)

/-- The pixel `BLIT_CELL` writes at column `px`, row `py`, clip apart: none outside the cell or where the pen is 0
(R235). -/
def blitPixel (c : Cfg) (b : Blit) (px py : Nat) : Option Pixel :=
  let u := (px : Int) - b.x
  let v := (py : Int) - b.y
  if 0 ≤ u && u < 16 && 0 ≤ v && v < 16 then
    let pen := spritePen c b.pattern (if b.flipX then 15 - u.toNat else u.toNat) (if b.flipY then 15 - v.toNat else v.toNat)
    if pen = 0 then none else some { kind := 2, pal := b.paletteId, pen := pen }
  else none

/-- The framebuffer positions of a cell; what is left of column 0 or above row 0 is cut off (R235). -/
def Blit.area (b : Blit) : Clip where
  rowLo := b.y.toNat
  rowHi := (b.y + 16).toNat
  colLo := b.x.toNat
  colHi := (b.x + 16).toNat

/-- `BLIT_CELL` (R235). -/
def blitCell (c : Cfg) (clip : Clip) (fb : Cells Pixel) (b : Blit) : Cells Pixel :=
  paint (clip.inter b.area) (blitPixel c b) fb

/-- Every `BLIT_CELL` of one pass, in order (R230). -/
def passBlits (s : State) (above : Bool) : List Blit :=
  ((visitedRecords s).filter (SpriteRecord.inPass above)).flatMap (spriteBlits s.cfg)

/-- `DRAW_SPRITES(clip, select_above_all)` (R230). -/
def drawSprites (s : State) (clip : Clip) (above : Bool) (fb : Cells Pixel) : Cells Pixel :=
  (passBlits s above).foldl (blitCell s.cfg clip) fb

end Sys2Proof.Machine
end

