-- ==== Sys2Proof/Machine/Refresh.lean ====
section
/-! DEFINITION. The units `partial_scanline_refresh_engine` and `priority_compositor` (`45_partial_refresh.md`) with the
tile caches they draw through (`40_tile_decode.md` R125): scroll resolution, cache update, the composite in its fixed
order, and the refresh of one band. -/

namespace Sys2Proof.Machine

/-! ## CACHE_UPDATE -/

/-- `cache[L][t]`. -/
def State.cacheEntry (s : State) (L : Layer) (t : Nat) : TileEntry := Cells.get TileEntry.zero (s.cache.get L) t

/-- The dirty tiles of a layer, rising. -/
def State.dirtyTiles (s : State) (L : Layer) : List Nat := (List.range L.tiles).filter (s.isDirty L)

/-- `CACHE_UPDATE` of one layer: decode every dirty tile and clear its bit (`40_tile_decode.md` R125). -/
def cacheUpdateLayer (s : State) (L : Layer) : State :=
  { s with
    cache := s.cache.set L (Cells.update TileEntry.zero (fun t _ => decodeTile s L.variant (s.tileAddr L t))
      (s.dirtyTiles L) (s.cache.get L))
    dirty := s.dirty.clear L }

/-- `CACHE_UPDATE()`: every layer that exists (`40_tile_decode.md` R125). -/
def cacheUpdate (s : State) : State := (existingLayers s.cfg).foldl cacheUpdateLayer s

/-! ## RESOLVE_SCROLL -/

/-- `rsx[L][r]`. -/
def State.rsx (s : State) (L : Layer) (r : Nat) : Half := Cells.get (0 : Half) (s.scroll.get L).x r

/-- `RESOLVE_SCROLL` of one layer (R195): 512 rows from the table, or row 0 from the scroll registers. -/
def resolveLayer (s : State) (L : Layer) : State :=
  let p := L.playfield
  let old := s.scroll.get L
  let resolved : ResolvedScroll :=
    if (s.layerCtl p).rowscroll then
      { rows := .all512
        x := Cells.update (0 : Half) (fun r _ => resolveX L (s.rowEntry p r)) (List.range 512) old.x
        y := s.scrollY p }
    else
      { rows := .one, x := Cells.set (0 : Half) old.x 0 (resolveX L (s.scrollX p)), y := s.scrollY p }
  { s with scroll := s.scroll.set L resolved }

/-- `RESOLVE_SCROLL()`: every layer that exists (R195). -/
def resolveScroll (s : State) : State := (existingLayers s.cfg).foldl resolveLayer s

/-! ## LAYER_DRAW -/

/-- `ly = (sy + rsy[L]) mod 512` (R203). -/
def sampleRow (s : State) (L : Layer) (sy : Nat) : Nat := (sy + (s.scroll.get L).y.toNat) % 512

/-- `lx = (sx + rsx[L][r]) mod W`, the row entry chosen by the layer row `ly` (R203). -/
def sampleCol (s : State) (L : Layer) (sx ly : Nat) : Nat :=
  (sx + (s.rsx L (match (s.scroll.get L).rows with | .all512 => ly | .one => 0)).toNat) % L.width

/-- `LayerSample(L, sx, sy)` (R203). -/
def layerSample (s : State) (L : Layer) (sx sy : Nat) : Sample :=
  let ly := sampleRow s L sy
  let lx := sampleCol s L sx ly
  let te := s.cacheEntry L (ly / 8 * L.cols + lx / 8)
  { tile := te, pen := tilePenAt s.cfg te (lx % 8) (ly % 8) }

/-- The pixel `LAYER_DRAW(p, pass)` writes at column `sx`, row `sy`, clip apart (R202, R205). -/
def layerPixel (s : State) (p : Playfield) (pass : Pass) (sx sy : Nat) : Option Pixel :=
  let a := layerSample s (s.activeLayer p) sx sy
  if isDrawn p pass a.tile a.pen then some { kind := 1, pal := a.tile.paletteId, pen := a.pen } else none

/-- `LAYER_DRAW(p, pass, clip)` (R202). -/
def layerDraw (s : State) (p : Playfield) (pass : Pass) (clip : Clip) (fb : Cells Pixel) : Cells Pixel :=
  paint clip (layerPixel s p pass) fb

/-- A pass of a playfield, which draws only while the playfield is enabled (R199, R208). -/
def drawIfEnabled (s : State) (clip : Clip) (pass : Pass) (p : Playfield) (fb : Cells Pixel) : Cells Pixel :=
  if (s.layerCtl p).enabled then layerDraw s p pass clip fb else fb

/-- Pass a (R199): playfield 3 BACK, or the `BG` fill while playfield 3 is disabled. -/
def drawBottom (s : State) (clip : Clip) (fb : Cells Pixel) : Cells Pixel :=
  if (s.layerCtl .pf3).enabled then layerDraw s .pf3 .back clip fb else paint clip (fun _ _ => some Pixel.bg) fb

/-- `Composite(clip)` on given framebuffer contents, passes a to f in their fixed order (R199). -/
def compositeFb (s : State) (clip : Clip) (fb : Cells Pixel) : Cells Pixel :=
  let a := drawBottom s clip fb
  let b := drawIfEnabled s clip .back .pf2 a
  let c := drawIfEnabled s clip .back .pf1 b
  let d := drawSprites s clip false c
  let e3 := drawIfEnabled s clip .front .pf3 d
  let e2 := drawIfEnabled s clip .front .pf2 e3
  let e1 := drawIfEnabled s clip .front .pf1 e2
  drawSprites s clip true e1

/-- `Composite(clip)` (R199). -/
def composite (clip : Clip) (s : State) : State := { s with fb := compositeFb s clip s.fb }

/-! ## PARTIAL_REFRESH -/

/-- The body of a non-empty refresh of the clipped band `[first, last)` (R190, steps 3 to 7). Step 6, the palette usage
scan, has no effect (R211). -/
def refreshBand (first last endLine : Int) (s : State) : State :=
  let drawn := composite (bandClip s.cfg first last) (cacheUpdate (resolveScroll s))
  { drawn with rs := { drawn.rs with lastRedrawnLine := BitVec.ofInt 16 (min endLine s.cfg.visEnd) } }

/-- `PARTIAL_REFRESH(start_line, end_line)` (R190): an empty clipped band has no effect at all (R193). -/
def partialRefresh (startLine endLine : Int) (s : State) : State :=
  let band := clipBand s.cfg startLine endLine
  if band.2 ≤ band.1 then s else refreshBand band.1 band.2 endLine s

end Sys2Proof.Machine
end

