-- ==== Sys2Proof/Machine/Raster.lean ====
section
/-! DEFINITION. The unit `raster_interrupt_fsm`, commands `SCAN_TICK`, `STATUS_RD` and `FRAME_START`
(`47_raster_fsm.md`). -/

namespace Sys2Proof.Machine

/-- What every tick records first, whatever its branch (R251). -/
def tickRecord (line : Half) (s : State) : State :=
  { s with rs := { s.rs with currentScanline := line, rasterMachineActive := true } }

/-- The raster branch (R253): the band through the trigger line itself. -/
def tickRaster (line : Half) (s : State) : State :=
  let drawn := partialRefresh s.rs.lastRedrawnLine.toNat ((line.toNat : Int) + 1) s
  let moved := { drawn with rs := { drawn.rs with lastRedrawnLine := BitVec.ofNat 16 (line.toNat + 1) } }
  moved.raiseIrq .raster

/-- The vertical-blank branch (R254). -/
def tickVblank (s : State) : State :=
  let drawn := partialRefresh s.rs.lastRedrawnLine.toNat 248 s
  let moved := { drawn with rs := { drawn.rs with lastRedrawnLine := 248, vblankFlag := true } }
  moved.raiseIrq .vblank

/-- The end-of-frame branch (R255). -/
def tickEndOfFrame (s : State) : State := { s with rs := { s.rs with vblankFlag := false, lastRedrawnLine := 0 } }

/-- The line is the raster trigger line of a machine with raster interrupts (R253): the `u16` line against the `int`. -/
def rasterHit (s : State) (line : Half) : Bool := (line.toNat : Int) == s.rasterIrqLine && s.cfg.rasterEnable

/-- The if-chain of `SCAN_TICK` (R250, R257): exactly one branch runs. -/
def tickBranch (line : Half) (s : State) : State :=
  if rasterHit s line then tickRaster line s
  else if line == 248 then tickVblank s
  else if line == 255 then tickEndOfFrame s
  else if line == 250 && s.cfg.quirkEovb250 then s.raiseIrq .endOfVblank
  else s

/-- `SCAN_TICK line` (R250). -/
def execScanTick (line : Half) (s : State) : Host.Outcome State Fault Refusal :=
  .next (tickBranch line (tickRecord line s))

/-- `STATUS_RD` (R260). -/
def execStatusRd (s : State) : Host.Outcome State Fault Refusal := .next (s.respond (statusByte s.rs.vblankFlag))

/-- `FRAME_START` (R261): `rs` only. -/
def execFrameStart (s : State) : Host.Outcome State Fault Refusal := .next { s with rs := RasterState.top }

end Sys2Proof.Machine
end

