-- ==== Sys2Proof/Machine/SpriteControl.lean ====
section
/-! DEFINITION. Sprite RAM access, sprite control and the buffer-trigger port, commands `SPR_WR`, `SPR_RD`, `SPRCTL_WR`
and `SPRBUF_TRIG` (`44_sprite_control.md`). -/

namespace Sys2Proof.Machine

/-- `SPR_WR offset, value` (R183): an offset above 0x7FF is a silent no-op. -/
def execSprWr (offset : Half) (value : Byte) (s : State) : Host.Outcome State Fault Refusal :=
  .next (if offset.toNat ≤ 0x7FF then s.setSprLiveByte offset.toNat value else s)

/-- `SPR_RD offset` (R184): an offset above 0x7FF responds 0x00. -/
def execSprRd (offset : Half) (s : State) : Host.Outcome State Fault Refusal :=
  .next (s.respond (if offset.toNat ≤ 0x7FF then s.sprLiveByte offset.toNat else 0x00))

/-- `SPRCTL_WR offset, value` (R176): store the byte; offset 8 on chip 1 swaps and clears (R177). -/
def execSprctlWr (offset : Half) (value : Byte) (s : State) : Host.Outcome State Fault Refusal :=
  .next (match reg9OfOffset offset with
    | some i =>
      let stored := s.setSpriteReg i value
      if i.val == 8 && s.cfg.spriteChip == .one then spriteSwap true stored else stored
    | none => s)

/-- `SPRBUF_TRIG offset, value` (R179): offset 0 on chip 0 swaps without clearing; the value is discarded. -/
def execSprbufTrig (offset : Half) (_value : Byte) (s : State) : Host.Outcome State Fault Refusal :=
  .next (if offset == 0 && s.cfg.spriteChip == .zero then spriteSwap false s else s)

end Sys2Proof.Machine
end

