-- ==== Sys2Proof/Machine/Vram.lean ====
section
/-! DEFINITION. VRAM access, commands `VRAM_WR` and `VRAM_RD` (`41_vram_access.md`). -/

namespace Sys2Proof.Machine

/-- `VRAM_WR offset, value` (R136): store the byte, then `MARK_DIRTY(offset)`. -/
def execVramWr (offset : Half) (value : Byte) (s : State) : Host.Outcome State Fault Refusal :=
  .next (markDirty offset (s.setVramByte offset value))

/-- `VRAM_RD offset` (R140). -/
def execVramRd (offset : Half) (s : State) : Host.Outcome State Fault Refusal := .next (s.respond (s.vramByte offset))

end Sys2Proof.Machine
end

