-- ==== Sys2Proof/Machine/Dispatch.lean ====
section
/-! DEFINITION. The meaning of every command: one arm per constructor of `Instr`, each one direct call. -/

namespace Sys2Proof.Machine

def exec (i : Instr) (s : State) : Host.Outcome State Fault Refusal :=
  match i with
  | .nop => Sys2Proof.Machine.execNop s
  | .vramWr offset value => Sys2Proof.Machine.execVramWr offset value s
  | .vramRd offset => Sys2Proof.Machine.execVramRd offset s
  | .sprWr offset value => Sys2Proof.Machine.execSprWr offset value s
  | .sprRd offset => Sys2Proof.Machine.execSprRd offset s
  | .pfctlWr layer index value => Sys2Proof.Machine.execPfctlWr layer index value s
  | .mctlWr index value => Sys2Proof.Machine.execMctlWr index value s
  | .sprctlWr offset value => Sys2Proof.Machine.execSprctlWr offset value s
  | .sprbufTrig offset value => Sys2Proof.Machine.execSprbufTrig offset value s
  | .scanTick line => Sys2Proof.Machine.execScanTick line s
  | .statusRd => Sys2Proof.Machine.execStatusRd s
  | .frameStart => Sys2Proof.Machine.execFrameStart s
  | .reservedC => Sys2Proof.Machine.execReservedC s
  | .reservedD => Sys2Proof.Machine.execReservedD s
  | .reservedE => Sys2Proof.Machine.execReservedE s
  | .reservedF => Sys2Proof.Machine.execReservedF s

end Sys2Proof.Machine
end

