-- ==== Sys2Proof/Machine/Step.lean ====
section
/-! DEFINITION. One step of the machine: it takes the next event from the command port (`10_state.md` R24: the block
fetches nothing, the commands come from outside, one per step) and executes it as one atomic step (`00_scope.md` R15). -/

namespace Sys2Proof.Machine

/-- One step. A command word is decoded and executed with an empty output to begin with; the `RESET` pin resets; with
nothing at the port the block waits and does nothing by itself (`70_reset_and_hazards.md` R302). -/
def step (s : State) : Host.Outcome State Fault Refusal :=
  match s.port with
  | [] => .next s
  | .command w :: rest => exec (decode w) (s.beginCommand rest)
  | .reset :: rest => .next (resetPin { s with port := rest })

/-- `s` with the command whose bits are `w` presented at the port as the next one. -/
def State.withFetchWord (s : State) (nbits w : Nat) : State := s.present (BitVec.ofNat 32 (w % 2 ^ nbits))

end Sys2Proof.Machine
end

