-- ==== Sys2Proof/WellFormed.lean ====
section
/-! DEFINITION. Which commands are inside the operand ranges of `30_encoding.md` R91. Every term of `Instr` has an
encoding, since its operands have exactly the widths of their fields (R90), and every one has an effect: a command that
this check refuses is the silent no-op of R95, never an error. -/

namespace Sys2Proof

/-- The selector and offset lie in the ranges R91 gives the command. -/
def Instr.inRange : Instr → Bool
  | .nop => true
  | .vramWr _ _ => true
  | .vramRd _ => true
  | .sprWr offset _ => decide (offset.toNat ≤ 0x7FF)
  | .sprRd offset => decide (offset.toNat ≤ 0x7FF)
  | .pfctlWr layer index _ => decide (layer.toNat ≤ 2) && decide (index.toNat ≤ 7)
  | .mctlWr index _ => decide (index.toNat ≤ 7)
  | .sprctlWr offset _ => decide (offset.toNat ≤ 8)
  | .sprbufTrig offset _ => decide (offset.toNat ≤ 1)
  | .scanTick _ => true
  | .statusRd => true
  | .frameStart => true
  | .reservedC => true
  | .reservedD => true
  | .reservedE => true
  | .reservedF => true

end Sys2Proof
end

