-- ==== Sys2Proof/Safety.lean ====
section
/-! DEFINITION. The terms claims are stated in: the canonical form of a state, the invariants of `10_state.md` R28, R29
and R46, tile-cache coherence (`20_memory.md` R75, R77), which commands may write which component (`10_state.md` R20),
the pixel a refresh must show (`45_partial_refresh.md` R209) and the bands of a frame (`47_raster_fsm.md` R259). -/

namespace Sys2Proof.Machine

/-- The register of `mctl` that holds the layer-select byte of a playfield, index `2p` (`10_state.md` R27). -/
def selectReg : Playfield → Fin 8
  | .pf1 => 0
  | .pf2 => 2
  | .pf3 => 4

/-- Every memory, cache, scroll table and the framebuffer is in its canonical form and inside its size. -/
structure State.Canonical (s : State) : Prop where
  vram : Memory.wf vramSize s.vram = true
  sprLive : Memory.wf sprSize s.sprLive = true
  sprBuf : Memory.wf sprSize s.sprBuf = true
  cache : ∀ L, Cells.wf TileEntry.zero L.tiles (s.cache.get L) = true
  scroll : ∀ L, Cells.wf (0 : Half) 512 (s.scroll.get L).x = true
  fb : fbWf s.fb = true

/-- R28's invariant: `lc[p]` is the decode of `mctl[2p]`; the wide flag of playfield 3 stays false under `Cfg.SPEEDUP`
(R27). -/
def State.LcLatched (s : State) (p : Playfield) : Prop :=
  (s.layerCtl p).ptr.toNat = (s.masterReg (selectReg p)).toNat % 4 * 0x4000 ∧
  (s.layerCtl p).enabled = (s.masterReg (selectReg p) &&& 0x10 == 0) ∧
  (s.layerCtl p).rowscroll = (s.masterReg (selectReg p) &&& 0x40 != 0) ∧
  (s.layerCtl p).wide =
    (if s.cfg.speedup && p == .pf3 then false else s.masterReg (selectReg p) &&& 0x04 != 0)

/-- R29's invariant: the raster line is the biased compare pair. -/
def State.RasterLatched (s : State) : Prop :=
  s.rasterIrqLine = ((s.masterReg 7).toNat : Int) * 256 + (s.masterReg 6).toNat - 128

/-- R46 (f): every pixel has kind 0, 1 or 2, and kind 0 only for `BG`. -/
def State.PixelsLegal (s : State) : Prop :=
  ∀ y x, (s.pixel y x).kind ≠ 3 ∧ ((s.pixel y x).kind = 0 → s.pixel y x = Pixel.bg)

/-- The invariant of every reachable state. -/
structure State.Inv (s : State) : Prop where
  cfg : s.cfg.wf = true
  canonical : s.Canonical
  lc : ∀ p, s.LcLatched p
  raster : s.RasterLatched
  pixels : s.PixelsLegal

/-! ## Coherence of the tile caches -/

/-- The layer is coherent as the bank pointers stand (`20_memory.md` R75). -/
def State.coherentLayer (s : State) : Layer → Bool
  | .pf2n => true
  | .pf3n => true
  | .pf1n => !(s.cfg.speedup && (s.layerCtl .pf1).ptr == 0xC000)
  | .pf1h => s.cfg.speedup
  | .pf1w =>
    (s.layerCtl .pf1).ptr == 0 || ((s.layerCtl .pf1).ptr == 0x8000 && !s.cfg.speedup)
  | .pf3w => (s.layerCtl .pf3).ptr == 0 || (s.layerCtl .pf3).ptr == 0x8000

/-- Every clean tile of every coherent layer holds the decode of its VRAM bytes as they stand (`20_memory.md` R77). -/
def State.CachesCurrent (s : State) : Prop :=
  ∀ L, s.coherentLayer L = true → ∀ t, t < L.tiles → s.isDirty L t = false →
    s.cacheEntry L t = decodeTile s L.variant (s.tileAddr L t)

/-! ## Who writes what (`10_state.md` R20, `60_exceptions.md` R276) -/

/-- The command is a `VRAM_WR`. -/
def isVramWr : Instr → Bool
  | .vramWr _ _ => true
  | _ => false

/-- The command is a `PFCTL_WR`. -/
def isPfctlWr : Instr → Bool
  | .pfctlWr _ _ _ => true
  | _ => false

/-- The command is a `MCTL_WR`. -/
def isMctlWr : Instr → Bool
  | .mctlWr _ _ => true
  | _ => false

/-- The command is a `SPRCTL_WR`. -/
def isSprctlWr : Instr → Bool
  | .sprctlWr _ _ => true
  | _ => false

/-- The command is a `SPRBUF_TRIG`. -/
def isSprbufTrig : Instr → Bool
  | .sprbufTrig _ _ => true
  | _ => false

/-- The command is a `SPR_WR`. -/
def isSprWr : Instr → Bool
  | .sprWr _ _ => true
  | _ => false

/-- The command is a `SCAN_TICK`. -/
def isScanTick : Instr → Bool
  | .scanTick _ => true
  | _ => false

/-- The command is a `FRAME_START`. -/
def isFrameStart : Instr → Bool
  | .frameStart => true
  | _ => false

/-- The command responds with a byte (`30_encoding.md` R97). -/
def responds : Instr → Bool
  | .vramRd _ => true
  | .sprRd _ => true
  | .statusRd => true
  | _ => false

/-! ## The pixel a refresh must show -/

/-- The position lies in the visible window: rows `VIS_TOP + 128` to `VIS_END + 127`, columns `VIS_LEFT` to
`VIS_RIGHT` (`10_state.md` R35). -/
def visibleWindow (c : Cfg) (y x : Nat) : Prop :=
  c.visTop + 128 ≤ y ∧ y ≤ c.visEnd + 127 ∧ c.visLeft ≤ x ∧ x ≤ c.visRight

/-! ## What a refresh must show

The tables and formulas below are written out from the spec in plain arithmetic over registers, bytes, cached entries
and pattern ROMs. They take none of the layer, sample, priority and cell definitions of `Machine/`, so that a statement
that equates the two fixes those definitions. -/

/-- The playfield of a layer (`10_state.md` R38). -/
def playfieldOf : Layer → Playfield
  | .pf1n => .pf1
  | .pf1w => .pf1
  | .pf1h => .pf1
  | .pf2n => .pf2
  | .pf3n => .pf3
  | .pf3w => .pf3

/-- The width of a layer's map in pixels (`10_state.md` R38); every map is 512 pixels high. -/
def mapWidth : Layer → Nat
  | .pf1w => 1024
  | .pf3w => 1024
  | .pf1n => 512
  | .pf1h => 512
  | .pf2n => 512
  | .pf3n => 512

/-- The decode variant of a layer (`40_tile_decode.md` R124): B for the layers of playfield 3. -/
def variantOf (L : Layer) : Variant := if playfieldOf L = .pf3 then .b else .a

/-- The VRAM address of a playfield's rowscroll table (`20_memory.md` R66). -/
def rowTableAt : Playfield → Nat
  | .pf1 => 0xF400
  | .pf2 => 0xF800
  | .pf3 => 0xFC00

/-- Entry `r` of a playfield's rowscroll table: two bytes, the low one first (`20_memory.md` R66). -/
def rowWord (s : State) (p : Playfield) (r : Nat) : Nat :=
  (s.vramByte (BitVec.ofNat 16 (rowTableAt p + 2 * r + 1))).toNat * 256 +
    (s.vramByte (BitVec.ofNat 16 (rowTableAt p + 2 * r))).toNat

/-- The layer a playfield draws through (`10_state.md` R39). -/
def shownLayer (s : State) : Playfield → Layer
  | .pf1 =>
    if s.cfg.speedup = true ∧ (s.layerCtl .pf1).ptr.toNat = 0xC000 then .pf1h
    else if (s.layerCtl .pf1).wide = true then .pf1w
    else .pf1n
  | .pf2 => .pf2n
  | .pf3 => if (s.layerCtl .pf3).wide = true then .pf3w else .pf3n

/-- The row of the layer under framebuffer row `y`: the scroll is added (`45_partial_refresh.md` R203). -/
def shownRow (s : State) (L : Layer) (y : Nat) : Nat := (y + (s.scroll.get L).y.toNat) % 512

/-- The column of the layer under framebuffer position (`x`, `y`): the scroll of the layer row is added, or that of row
0 while one row is in force (R203). -/
def shownCol (s : State) (L : Layer) (x y : Nat) : Nat :=
  (x + (s.rsx L (if (s.scroll.get L).rows = .all512 then shownRow s L y else 0)).toNat) % mapWidth L

/-- The cached entry of the tile there: tiles of 8 x 8 pixels, numbered row by row (R203, `40_tile_decode.md` R120). -/
def shownEntry (s : State) (L : Layer) (x y : Nat) : TileEntry :=
  s.cacheEntry L (shownRow s L y / 8 * (mapWidth L / 8) + shownCol s L x y / 8)

/-- The pen of an entry at column `u`, row `v` of its tile, mirrored by a set flip (`40_tile_decode.md` R127); the ROM's
key is that of log entry 2. -/
def entryPen (c : Cfg) (te : TileEntry) (u v : Nat) : BitVec 4 :=
  Cells.get (0 : BitVec 4) c.tileRom
    (te.patternIndex.toNat * 64 + (if te.flipY = true then 7 - v else v) * 8 + (if te.flipX = true then 7 - u else u))

/-- The pen a layer shows at a position (R203). -/
def shownPen (s : State) (L : Layer) (x y : Nat) : BitVec 4 :=
  entryPen s.cfg (shownEntry s L x y) (shownCol s L x y % 8) (shownRow s L y % 8)

/-- The tile pixel a layer shows at a position is high: any pen but 0 of a full-above tile, pens 8 to 15 of a split tile
(R204). -/
abbrev ShowsHigh (s : State) (L : Layer) (x y : Nat) : Prop :=
  ((shownEntry s L x y).priorityClass = .fullAboveAlt ∨ (shownEntry s L x y).priorityClass = .fullAbove) ∧
      (shownPen s L x y).toNat ≠ 0 ∨
    (shownEntry s L x y).priorityClass = .splitTop8Pens ∧ 8 ≤ (shownPen s L x y).toNat

/-- The tile pixel a layer shows at a position: `{1, palette_id, pen}` (R209). -/
def tilePixelOf (s : State) (L : Layer) (x y : Nat) : Pixel :=
  { kind := 1, pal := (shownEntry s L x y).paletteId, pen := shownPen s L x y }

/-- The high pixel of an enabled playfield at a position, if it is high there (R209, cases 2 to 4). -/
def highPixel (s : State) (p : Playfield) (x y : Nat) : Option Pixel :=
  if (s.layerCtl p).enabled = true ∧ ShowsHigh s (shownLayer s p) x y then some (tilePixelOf s (shownLayer s p) x y)
  else none

/-- The low pixel of an enabled playfield at a position, pen 0 counting only if `opaqueZero` (R209, cases 6 to 8). -/
def lowPixel (s : State) (p : Playfield) (opaqueZero : Bool) (x y : Nat) : Option Pixel :=
  if (s.layerCtl p).enabled = true ∧ ¬ ShowsHigh s (shownLayer s p) x y ∧
      ((shownPen s (shownLayer s p) x y).toNat ≠ 0 ∨ opaqueZero = true) then
    some (tilePixelOf s (shownLayer s p) x y)
  else none

/-- The pixel a cell shows at a position: none outside its 16 x 16 pixels or where its pen, mirrored by a set flip, is 0
(`46_sprite_engine.md` R235); the ROM's key is that of log entry 2. -/
def cellPixel (c : Cfg) (b : Blit) (x y : Nat) : Option Pixel :=
  let u := ((x : Int) - b.x).toNat
  let v := ((y : Int) - b.y).toNat
  let pen := Cells.get (0 : BitVec 4) c.sprRom
    (b.pattern.toNat * 256 + (if b.flipY = true then 15 - v else v) * 16 + (if b.flipX = true then 15 - u else u))
  if b.x ≤ x ∧ (x : Int) < b.x + 16 ∧ b.y ≤ y ∧ (y : Int) < b.y + 16 ∧ pen.toNat ≠ 0 then
    some { kind := 2, pal := b.paletteId, pen := pen }
  else none

/-- The pixel one record puts at a position: that of a cell that covers it with a pen other than 0. -/
def recordPixel (c : Cfg) (r : SpriteRecord) (x y : Nat) : Option Pixel :=
  (spriteBlits c r).findSome? fun b => cellPixel c b x y

/-- The pixel of the lowest-offset record of the active list that is on screen, belongs to the pass and covers the
position with a pen other than 0 (R209, cases 1 and 5). -/
def spritePixel (s : State) (above : Bool) (x y : Nat) : Option Pixel :=
  (List.range (recordCount s)).findSome? fun n =>
    let r := decodeSprite s (8 * n)
    if r.x ≠ 0 ∧ r.y ≠ 0 ∧ r.priorityAboveAll = above then recordPixel s.cfg r x y else none

/-- The nine cases of R209, the first that exists. -/
def compositePixel (s : State) (x y : Nat) : Pixel :=
  (((((((spritePixel s true x y <|> highPixel s .pf1 x y) <|> highPixel s .pf2 x y) <|> highPixel s .pf3 x y) <|>
    spritePixel s false x y) <|> lowPixel s .pf1 false x y) <|> lowPixel s .pf2 false x y) <|>
    lowPixel s .pf3 true x y).getD Pixel.bg

/-- The cells of a record in closed form: column `i`, row `j`, with the pattern of `CellPattern` (`46_sprite_engine.md`
R234) at the place of R233 and R238. -/
def cellOf (c : Cfg) (r : SpriteRecord) (i j : Nat) : Blit where
  pattern := BitVec.ofInt 16 ((r.patternBase.toNat : Int) + c.sprColStride * i +
    (if r.flipY then (j : Int) else (r.yCells : Int) - 1 - j))
  paletteId := r.paletteId
  flipX := r.flipX
  flipY := r.flipY
  x := (r.x.toNat : Int) - 16 + 16 * (if r.flipX then (r.xCells : Int) - 1 - i else i)
  y := 512 - 16 - (r.y.toNat : Int) - 16 * j

/-! ## The bands of a frame -/

/-- The band the tick of `line` hands to `PARTIAL_REFRESH`, if its branch hands one (`47_raster_fsm.md` R253, R254). -/
def tickBand (s : State) (line : Half) : Option (Int × Int) :=
  if s.cfg.rasterEnable = true ∧ (line.toNat : Int) = s.rasterIrqLine then
    some ((s.rs.lastRedrawnLine.toNat : Int), (line.toNat : Int) + 1)
  else if line.toNat = 248 then some ((s.rs.lastRedrawnLine.toNat : Int), 248)
  else none

/-- The bands of a sequence of ticks executed from `s`, in order. -/
def tickBands : State → List Half → List (Int × Int)
  | _, [] => []
  | s, line :: lines =>
    (tickBand s line).toList ++
      match exec (.scanTick line) s with
      | .next t => tickBands t lines
      | .fault _ => []
      | .refused _ => []

/-- The lines 0 to 255 of a frame, in order. -/
def frameLines : List Half := (List.range 256).map (BitVec.ofNat 16)

/-- How many of the bands contain line `n`. -/
def coverCount (bands : List (Int × Int)) (n : Int) : Nat :=
  (bands.filter fun b => decide (b.1 ≤ n) && decide (n < b.2)).length

/-! ## Words and marks, written from the spec's arithmetic -/

/-- `(OP << 28) | (SEL << 24) | (ADDR << 8) | DATA` (`30_encoding.md` R106). -/
def commandWord (op sel : BitVec 4) (addr : Half) (data : Byte) : CmdWord :=
  (op.setWidth 32 <<< 28) ||| (sel.setWidth 32 <<< 24) ||| (addr.setWidth 32 <<< 8) ||| data.setWidth 32

/-- The bits of a command's word that it uses: `OP` and the fields of `30_encoding.md` R91. -/
def usedBits : Instr → CmdWord
  | .nop => 0xF0000000
  | .vramWr _ _ => 0xF0FFFFFF
  | .vramRd _ => 0xF0FFFF00
  | .sprWr _ _ => 0xF0FFFFFF
  | .sprRd _ => 0xF0FFFF00
  | .pfctlWr _ _ _ => 0xFFFFFFFF
  | .mctlWr _ _ => 0xF0FFFFFF
  | .sprctlWr _ _ => 0xF0FFFFFF
  | .sprbufTrig _ _ => 0xF0FFFFFF
  | .scanTick _ => 0xF0FFFF00
  | .statusRd => 0xF0000000
  | .frameStart => 0xF0000000
  | .reservedC => 0xF0000000
  | .reservedD => 0xF0000000
  | .reservedE => 0xF0000000
  | .reservedF => 0xF0000000

/-- What a layer adds to its raw X scroll: the bias of its playfield, and 256 when wide (`45_partial_refresh.md` R197). -/
def layerShift : Layer → Int
  | .pf1n => 0
  | .pf1w => 256
  | .pf2n => -2
  | .pf3n => -4
  | .pf3w => 252
  | .pf1h => 0

/-- The number of the playfield in a `PFCTL_WR` selector (`30_encoding.md` R91). -/
def selOf : Playfield → BitVec 4
  | .pf1 => 0
  | .pf2 => 1
  | .pf3 => 2

/-- The tile `k` of layer `L` that a write to `offset` marks (`41_vram_access.md` R137, R138), in plain arithmetic. -/
def marksTile (s : State) (offset : Half) (L : Layer) (k : Nat) : Bool :=
  let bank := offset.toNat / 0x4000 * 0x4000
  let high := s.cfg.speedup && bank == 0xC000
  let hit (p : Playfield) : Bool :=
    bank == (s.layerCtl p).ptr.toNat || bank == (s.layerCtl p).ptr.toNat + 0x4000
  match L with
  | .pf1n => !high && hit .pf1 && k == offset.toNat % 0x4000 / 4
  | .pf1w => !high && hit .pf1 && k == offset.toNat % 0x8000 / 4
  | .pf2n => hit .pf2 && k == offset.toNat % 0x4000 / 4
  | .pf3n => hit .pf3 && k == offset.toNat % 0x4000 / 4
  | .pf3w => hit .pf3 && k == offset.toNat % 0x8000 / 4
  | .pf1h => high && k == offset.toNat % 0x4000 / 4

end Sys2Proof.Machine
end

