-- ==== Sys2Proof/Certificates/Slice0/Obligations.lean ====
section
/-! DEFINITION. The statements for the provers: what the commands and the machine do, from the numbered rules of
`spec/`. `t = { s with … }` says a frame: every component not named is as it was. "D<n>" names a row of
`92_eei_decisions.md`: a choice of the spec's own where its source is silent. -/

open Sys2Proof Sys2Proof.Machine

/-! ## Encoding -/

/-- Decoding the word of a command gives the command back, every operand at every value (`30_encoding.md` R90, R93,
R106; the encoding is the spec's decision D2, log entry 6). -/
def Obligations.DecodeEncodeRoundTrip : Prop := ∀ i : Instr, decode (encode i) = i

/-- Every word is the word of its command but for the fields the command ignores, which an assembler writes as zero
(`30_encoding.md` R91, R93, R96; decisions D2 and D3, log entry 6). -/
def Obligations.EncodeDecodeClearsIgnoredFields : Prop :=
  ∀ w : CmdWord, encode (decode w) = w &&& usedBits (decode w)

/-- The opcode map (`30_encoding.md` R93): what `OP` selects, with which fields, whatever the ignored fields hold. The
encoding is the spec's decision D2 (log entry 6). -/
def Obligations.DecodeFollowsOpcodeMap : Prop :=
  ∀ (sel : BitVec 4) (addr : Half) (data : Byte),
    decode (commandWord 0x0 sel addr data) = .nop ∧
    decode (commandWord 0x1 sel addr data) = .vramWr addr data ∧
    decode (commandWord 0x2 sel addr data) = .vramRd addr ∧
    decode (commandWord 0x3 sel addr data) = .sprWr addr data ∧
    decode (commandWord 0x4 sel addr data) = .sprRd addr ∧
    decode (commandWord 0x5 sel addr data) = .pfctlWr sel addr data ∧
    decode (commandWord 0x6 sel addr data) = .mctlWr addr data ∧
    decode (commandWord 0x7 sel addr data) = .sprctlWr addr data ∧
    decode (commandWord 0x8 sel addr data) = .sprbufTrig addr data ∧
    decode (commandWord 0x9 sel addr data) = .scanTick addr ∧
    decode (commandWord 0xA sel addr data) = .statusRd ∧
    decode (commandWord 0xB sel addr data) = .frameStart ∧
    decode (commandWord 0xC sel addr data) = .reservedC ∧
    decode (commandWord 0xD sel addr data) = .reservedD ∧
    decode (commandWord 0xE sel addr data) = .reservedE ∧
    decode (commandWord 0xF sel addr data) = .reservedF

/-- The example words of `30_encoding.md` R106 decode to the commands written beside them (decision D2, log entry 6).
-/
def Obligations.SampleCommandWordsDecode : Prop :=
  decode 0x10F40210 = .vramWr 0xF402 0x10 ∧ decode 0x20F40200 = .vramRd 0xF402 ∧
  decode 0x30000690 = .sprWr 0x006 0x90 ∧ decode 0x40000600 = .sprRd 0x006 ∧
  decode 0x51000420 = .pfctlWr 1 4 0x20 ∧ decode 0x60000680 = .mctlWr 6 0x80 ∧
  decode 0x70000800 = .sprctlWr 8 0x00 ∧ decode 0x80000000 = .sprbufTrig 0 0x00 ∧
  decode 0x9000F800 = .scanTick 248 ∧ decode 0xA0000000 = .statusRd ∧
  decode 0xB0000000 = .frameStart ∧ decode 0x00000000 = .nop

/-! ## The step -/

/-- A step runs the command presented at the port: it takes the word off the port, begins with an empty output, and
executes what the word decodes to (`10_state.md` R24, `00_scope.md` R15). The port and its queue are the model's own
(log entries 3 and 4). -/
def Obligations.StepRunsPresentedCommand : Prop :=
  ∀ (s : State) (w : CmdWord) (rest : List PortEvent), s.port = .command w :: rest →
    step s = exec (decode w) { s with port := rest, out := Output.none }

/-- A command stored where the machine takes its next one is the one the next step runs, in any state. The place is
the model's own port (log entry 3), the word's form the spec's decision D2 (log entry 6). -/
def Obligations.FetchWordRunsItsCommand : Prop :=
  ∀ (s : State) (i : Instr), step (s.withFetchWord 32 (encode i).toNat) = exec i { s with out := Output.none }

/-- With nothing at the port the block waits: "it does nothing by itself" (`70_reset_and_hazards.md` R302, decisions
D27 and D35). The port is the model's own (log entry 3). -/
def Obligations.EmptyPortWaits : Prop := ∀ s : State, s.port = [] → step s = .next s

/-- `step` is total: no state and no command word faults or is refused (`60_exceptions.md` R270). -/
def Obligations.NoStepFaults : Prop := ∀ s : State, ∃ t, step s = .next t

/-- `RESET` (`70_reset_and_hazards.md` R300): the state becomes the reset state whatever it was, with no output, and
`Cfg` is not changed. The values are the spec's decision D27 (log entry 5), but for `rs`. That `RESET` is an event of
the port which keeps the commands waiting there (`t.port = rest`) is no rule of the spec but the model's choice (log
entries 3 and 34). -/
def Obligations.ResetPinEstablishesResetState : Prop :=
  ∀ (s : State) (rest : List PortEvent), s.port = .reset :: rest →
    ∃ t, step s = .next t ∧ t.cfg = s.cfg ∧ t.port = rest ∧ t.out = Output.none ∧
      (∀ a, t.vramByte a = 0) ∧ (∀ a, t.sprLiveByte a = 0) ∧ (∀ a, t.sprBufByte a = 0) ∧
      (∀ p i, t.pfReg p i = 0) ∧ (∀ i, t.masterReg i = 0) ∧ (∀ i, t.spriteReg i = 0) ∧
      (∀ p, t.layerCtl p = { ptr := 0, wide := false, enabled := true, rowscroll := false }) ∧
      t.rasterIrqLine = -128 ∧
      t.rs = { vblankFlag := false, rasterMachineActive := false, lastRedrawnLine := 0, currentScanline := 0 } ∧
      (∀ L k, t.cacheEntry L k =
        { patternIndex := 0, paletteId := 0, priorityClass := .normal, flipX := false, flipY := false }) ∧
      (∀ L k, k < L.tiles → t.isDirty L k = true) ∧
      (∀ L, (t.scroll.get L).rows = .one ∧ (t.scroll.get L).y = 0 ∧ ∀ r, t.rsx L r = 0) ∧
      (∀ y x, t.pixel y x = Pixel.bg) ∧ t.warnRasterCfg = false

/-! ## Commands without effect -/

/-- `NOP` (`30_encoding.md` R104) and the reserved opcodes (R94) leave the whole state as it was and give no output.
Both are the spec's own commands (decisions D2 and D3, log entries 6 and 7). -/
def Obligations.NopAndReservedChangeNothing : Prop :=
  ∀ s : State, exec .nop s = .next s ∧ exec .reservedC s = .next s ∧ exec .reservedD s = .next s ∧
    exec .reservedE s = .next s ∧ exec .reservedF s = .next s

/-- A selector or offset out of the ranges of `30_encoding.md` R91 makes a write a silent no-op; a read out of range
responds 0x00 and changes nothing (R95; the spec's decisions D3 and D38, log entry 7). -/
def Obligations.OutOfRangeOperandsAreIgnored : Prop :=
  ∀ (i : Instr) (s : State), i.inRange = false →
    exec i s = .next
      (match i with
        | .sprRd _ => { s with out := { s.out with response := some 0x00 } }
        | _ => s)

/-! ## VRAM -/

/-- `VRAM_WR offset, value` (`41_vram_access.md` R136, R137): one byte is stored, the tile of each layer that R137 and
R138 name is marked, nothing else changes. The alias sum that does not wrap is the spec's decision D12 (log entry 14),
the speed-up dispatch D21 (log entry 15). -/
def Obligations.VramWriteStoresAndMarks : Prop :=
  ∀ (s : State) (offset : Half) (value : Byte), Memory.wf vramSize s.vram = true →
    ∃ t, exec (.vramWr offset value) s = .next t ∧
      (∀ a, t.vramByte a = if a = offset then value else s.vramByte a) ∧
      (∀ L k, t.isDirty L k = (s.isDirty L k || marksTile s offset L k)) ∧
      t = { s with vram := t.vram, dirty := t.dirty }

/-- `VRAM_RD offset` responds with the VRAM byte and changes nothing (`41_vram_access.md` R140; what can be read is
the spec's decision D4, log entry 8). -/
def Obligations.VramReadResponds : Prop :=
  ∀ (s : State) (offset : Half),
    exec (.vramRd offset) s = .next { s with out := { s.out with response := some (s.vramByte offset) } }

/-- `TileAddr(L, t)` (`20_memory.md` R65): the layer's base plus `4 t`, modulo 0x10000 (the wrap is the spec's
decision D12, log entry 14; the high layer D21, log entry 15). -/
def Obligations.TileAddressesFollowTheBank : Prop :=
  ∀ (s : State) (L : Layer) (k : Nat), k < L.tiles →
    (s.tileAddr L k).toNat =
      ((match L with
        | .pf1h => 0xC000
        | .pf1n => (s.layerCtl .pf1).ptr.toNat
        | .pf1w => (s.layerCtl .pf1).ptr.toNat
        | .pf2n => (s.layerCtl .pf2).ptr.toNat
        | .pf3n => (s.layerCtl .pf3).ptr.toNat
        | .pf3w => (s.layerCtl .pf3).ptr.toNat) + 4 * k) % 0x10000

/-- `DECODE_TILE` (`40_tile_decode.md` R121, R122, R123) in plain arithmetic over the four bytes at `a`. -/
def Obligations.TileDecodeReadsFourBytes : Prop :=
  ∀ (s : State) (v : Variant) (a : Half),
    let lo := (s.vramByte a).toNat
    let hi := (s.vramByte (a + 1)).toNat
    let color := (s.vramByte (a + 2)).toNat
    let flag := (s.vramByte (a + 3)).toNat
    let te := decodeTile s v a
    te.patternIndex.toNat = hi * 256 + lo ∧ te.paletteId.toNat = color % 64 ∧
    te.flipX = decide (flag / 2 % 2 = 1) ∧ te.flipY = decide (flag / 4 % 2 = 1) ∧
    te.priorityClass =
      (if v = .a ∧ flag % 2 = 1 then .fullAboveAlt else if 128 ≤ color then .splitTop8Pens else .normal)

/-! ## Playfield control -/

/-- `PFCTL_WR layer, index, value` (`42_pf_control.md` R150): the named byte is stored, for a layer up to 2 and an
index up to 7; nothing else changes. That any other layer or index stores nothing is the spec's decision D3 (log entry
7). -/
def Obligations.PfControlWriteStores : Prop :=
  ∀ (s : State) (layer : BitVec 4) (index : Half) (value : Byte),
    ∃ t, exec (.pfctlWr layer index value) s = .next t ∧
      (∀ (p : Playfield) (i : Fin 8),
        t.pfReg p i = if layer = selOf p ∧ index.toNat = i.val then value else s.pfReg p i) ∧
      t = { s with pfctl := t.pfctl }

/-- The scroll values are views of the register pairs, low byte first (`10_state.md` R22). -/
def Obligations.ScrollValuesAreRegisterPairs : Prop :=
  ∀ (s : State) (p : Playfield),
    (s.scrollX p).toNat = (s.pfReg p 5).toNat * 256 + (s.pfReg p 4).toNat ∧
    (s.scrollY p).toNat = (s.pfReg p 1).toNat * 256 + (s.pfReg p 0).toNat

/-! ## Master control -/

/-- `MCTL_WR 2p, value` (`43_master_control.md` R160, R163, R165): the byte is stored and decoded into `lc[p]`, the
wide flag of playfield 3 kept under `Cfg.SPEEDUP`; a changed bank pointer marks every tile of the playfield's narrow
and wide layers; nothing else changes. The part of `Cfg.SPEEDUP`, that playfield 3 keeps its wide flag and that its
wide layer is marked all the same, is the spec's decision D21 (log entry 15). -/
def Obligations.LayerSelectLatchesAndMarks : Prop :=
  ∀ (s : State) (p : Playfield) (value : Byte),
    ∃ t, exec (.mctlWr (BitVec.ofNat 16 (selectReg p).val) value) s = .next t ∧
      (∀ j, t.masterReg j = if j = selectReg p then value else s.masterReg j) ∧
      (t.layerCtl p).ptr.toNat = value.toNat % 4 * 0x4000 ∧
      (t.layerCtl p).enabled = (value &&& 0x10 == 0) ∧
      (t.layerCtl p).rowscroll = (value &&& 0x40 != 0) ∧
      (t.layerCtl p).wide =
        (if p = .pf3 ∧ s.cfg.speedup = true then (s.layerCtl p).wide else value &&& 0x04 != 0) ∧
      (∀ q, q ≠ p → t.layerCtl q = s.layerCtl q) ∧
      (∀ L k, L ≠ .pf1h → t.isDirty L k =
        if (t.layerCtl p).ptr ≠ (s.layerCtl p).ptr ∧ L.playfield = p then decide (k < L.tiles) else s.isDirty L k) ∧
      t = { s with mctl := t.mctl, lc := t.lc, dirty := t.dirty }

/-- No `MCTL_WR` marks a tile of the high layer (`43_master_control.md` R165; the spec's decision D21, log entry 15).
-/
def Obligations.BankMoveSparesHighLayer : Prop :=
  ∀ (s : State) (index : Half) (value : Byte),
    ∃ t, exec (.mctlWr index value) s = .next t ∧ ∀ k, t.isDirty .pf1h k = s.isDirty .pf1h k

/-- `MCTL_WR 6` and `7` (`43_master_control.md` R166): the line is the biased pair as both bytes stand after the
write, neither truncated nor wrapped; the rest is as it was, the warning apart. -/
def Obligations.RasterBytesLatchLine : Prop :=
  ∀ (s : State) (i : Fin 8) (value : Byte), i = 6 ∨ i = 7 →
    ∃ t, exec (.mctlWr (BitVec.ofNat 16 i.val) value) s = .next t ∧
      (∀ j, t.masterReg j = if j = i then value else s.masterReg j) ∧
      t.rasterIrqLine = ((t.masterReg 7).toNat : Int) * 256 + (t.masterReg 6).toNat - 128 ∧
      t = { s with
            mctl := t.mctl
            rasterIrqLine := t.rasterIrqLine
            warnRasterCfg := t.warnRasterCfg
            out := { s.out with warn := t.out.warn } }

/-- `MCTL_WR 6` and `7` (`43_master_control.md` R167): a line of 128 or more on a machine without raster interrupts
sets the sticky flag and warns; otherwise neither changes. The flag and the pulse are the spec's decision D24 (log
entry 16). -/
def Obligations.RasterLineMismatchWarns : Prop :=
  ∀ (s : State) (i : Fin 8) (value : Byte), i = 6 ∨ i = 7 →
    ∃ t, exec (.mctlWr (BitVec.ofNat 16 i.val) value) s = .next t ∧
      (t.warnRasterCfg, t.out.warn) =
        (if 128 ≤ t.rasterIrqLine ∧ s.cfg.rasterEnable = false then (true, true) else (s.warnRasterCfg, s.out.warn))

/-- `MCTL_WR 1`, `3` and `5` store the byte and do nothing else (`43_master_control.md` R161; storing is the spec's
decision D30, log entry 17). -/
def Obligations.ReservedMasterRegistersOnlyStore : Prop :=
  ∀ (s : State) (i : Fin 8) (value : Byte), i = 1 ∨ i = 3 ∨ i = 5 →
    ∃ t, exec (.mctlWr (BitVec.ofNat 16 i.val) value) s = .next t ∧
      (∀ j, t.masterReg j = if j = i then value else s.masterReg j) ∧ t = { s with mctl := t.mctl }

/-! ## Sprite RAM and sprite control -/

/-- `SPR_WR offset, value` (`44_sprite_control.md` R183): one byte of the live copy is stored, offsets up to 0x7FF;
nothing else changes. The command is the spec's decision D5 (log entry 9); that an offset above 0x7FF stores nothing
is its decision D3 (`30_encoding.md` R95, log entry 7). -/
def Obligations.SpriteWriteStoresLive : Prop :=
  ∀ (s : State) (offset : Half) (value : Byte), Memory.wf sprSize s.sprLive = true →
    ∃ t, exec (.sprWr offset value) s = .next t ∧
      (∀ a, t.sprLiveByte a = if a = offset.toNat ∧ a ≤ 0x7FF then value else s.sprLiveByte a) ∧
      t = { s with sprLive := t.sprLive }

/-- `SPR_RD offset` responds with the live byte, or 0x00 above 0x7FF, and changes nothing (`44_sprite_control.md`
R184; the spec's decisions D4, D5 and D38, log entries 7 to 9). -/
def Obligations.SpriteReadResponds : Prop :=
  ∀ (s : State) (offset : Half),
    exec (.sprRd offset) s =
      .next { s with out := { s.out with
        response := some (if offset.toNat ≤ 0x7FF then s.sprLiveByte offset.toNat else 0x00) } }

/-- `SPRCTL_WR offset, value` stores the byte and does nothing else, but for offset 8 on chip 1
(`44_sprite_control.md` R176, R178; storing the unused bytes is the spec's decision D30, log entry 17). -/
def Obligations.SpriteControlWriteStores : Prop :=
  ∀ (s : State) (i : Fin 9) (value : Byte), (i = 8 → s.cfg.spriteChip = .zero) →
    ∃ t, exec (.sprctlWr (BitVec.ofNat 16 i.val) value) s = .next t ∧
      (∀ j, t.spriteReg j = if j = i then value else s.spriteReg j) ∧ t = { s with sprctl := t.sprctl }

/-- `SPRITE_SWAP(clear)` (`44_sprite_control.md` R180): every live byte goes to the rendered copy, the live copy is
cleared if and only if the swap clears, exactly one `SPRITE_BUFFER_COMPLETE_IRQ` is raised; nothing else changes. -/
def Obligations.SpriteSwapCopiesAllBytes : Prop :=
  ∀ (s : State) (clear : Bool),
    let t := spriteSwap clear s
    (∀ a, t.sprBufByte a = s.sprLiveByte a) ∧
    (∀ a, t.sprLiveByte a = if clear then 0x00 else s.sprLiveByte a) ∧
    t.out = { s.out with irqs := s.out.irqs ++ [.spriteBufferComplete] } ∧
    t = { s with sprBuf := t.sprBuf, sprLive := t.sprLive, out := t.out }

/-- `SPRCTL_WR 8, value` on chip 1, for every value (`44_sprite_control.md` R177, R180): the byte is stored, the live
copy goes to the rendered copy, the live copy is cleared, one request is raised; nothing else changes. That every
value triggers is the spec's decision D26 (log entry 18). -/
def Obligations.ChipOneSwapCopiesAndClears : Prop :=
  ∀ (s : State) (value : Byte), s.cfg.spriteChip = .one →
    ∃ t, exec (.sprctlWr 8 value) s = .next t ∧
      (∀ j, t.spriteReg j = if j = 8 then value else s.spriteReg j) ∧
      (∀ a, t.sprBufByte a = s.sprLiveByte a) ∧ (∀ a, t.sprLiveByte a = 0) ∧
      t.out = { s.out with irqs := s.out.irqs ++ [.spriteBufferComplete] } ∧
      t = { s with sprctl := t.sprctl, sprBuf := t.sprBuf, sprLive := t.sprLive, out := t.out }

/-- `SPRBUF_TRIG 0, value` on chip 0 (`44_sprite_control.md` R179, R180): the live copy goes to the rendered copy, the
live copy is kept, one request is raised; nothing else changes. That offset 0 triggers, with every value, is the
spec's decision D26 (log entry 18). -/
def Obligations.ChipZeroTriggerCopies : Prop :=
  ∀ (s : State) (value : Byte), s.cfg.spriteChip = .zero →
    ∃ t, exec (.sprbufTrig 0 value) s = .next t ∧
      (∀ a, t.sprBufByte a = s.sprLiveByte a) ∧ (∀ a, t.sprLiveByte a = s.sprLiveByte a) ∧
      t.out = { s.out with irqs := s.out.irqs ++ [.spriteBufferComplete] } ∧
      t = { s with sprBuf := t.sprBuf, out := t.out }

/-- `SPRBUF_TRIG` at any other offset, or on chip 1, does nothing; the port stores nothing (`44_sprite_control.md`
R179; the spec's decision D26, log entry 18). -/
def Obligations.OtherTriggersDoNothing : Prop :=
  ∀ (s : State) (offset : Half) (value : Byte), (offset ≠ 0 ∨ s.cfg.spriteChip = .one) →
    exec (.sprbufTrig offset value) s = .next s

/-! ## The raster state machine -/

/-- Every tick, whatever its branch, records its line and the activity flag (`47_raster_fsm.md` R251). That a tick
writes these two fields is the spec's decision D23 (log entry 19); the statements of the branches leave them open. -/
def Obligations.TicksRecordLineAndActivity : Prop :=
  ∀ (s : State) (line : Half),
    ∃ t, exec (.scanTick line) s = .next t ∧ t.rs.currentScanline = line ∧ t.rs.rasterMachineActive = true

/-- `SCAN_TICK` at the trigger line (`47_raster_fsm.md` R253): the band from the last redrawn line through the trigger
line itself is refreshed with the registers of the moment of the tick, the next band starts one line further (modulo
0x10000, R252), and `RASTER_IRQ` alone is raised. That the band includes the trigger line is a choice: the spec's own
resolution of its source's conflict C1 (log entry 30). -/
def Obligations.RasterTickRedrawsThroughTriggerLine : Prop :=
  ∀ (s : State) (line : Half), s.cfg.rasterEnable = true → (line.toNat : Int) = s.rasterIrqLine →
    ∃ t, exec (.scanTick line) s = .next t ∧
      t.rs.vblankFlag = s.rs.vblankFlag ∧ t.rs.lastRedrawnLine = line + 1 ∧
      t.out = { s.out with irqs := s.out.irqs ++ [.raster] } ∧
      (let d := partialRefresh s.rs.lastRedrawnLine.toNat ((line.toNat : Int) + 1) s
       t = { s with cache := d.cache, dirty := d.dirty, scroll := d.scroll, fb := d.fb, rs := t.rs, out := t.out })

/-- `SCAN_TICK 248` not taken by the raster branch (`47_raster_fsm.md` R254): the band up to line 247 is refreshed,
the next band starts at 248, the flag is set and `VBLANK_IRQ` alone is raised, be the band empty or not. -/
def Obligations.VblankTickRedrawsAndRaises : Prop :=
  ∀ s : State, ¬ (s.cfg.rasterEnable = true ∧ s.rasterIrqLine = 248) →
    ∃ t, exec (.scanTick 248) s = .next t ∧
      t.rs.vblankFlag = true ∧ t.rs.lastRedrawnLine = 248 ∧
      t.out = { s.out with irqs := s.out.irqs ++ [.vblank] } ∧
      (let d := partialRefresh s.rs.lastRedrawnLine.toNat 248 s
       t = { s with cache := d.cache, dirty := d.dirty, scroll := d.scroll, fb := d.fb, rs := t.rs, out := t.out })

/-- `SCAN_TICK 255` not taken by the raster branch (`47_raster_fsm.md` R255): flag and band start are cleared, no
request, nothing else changes but the two recorded fields (R251: decision D23, log entry 19). -/
def Obligations.EndOfFrameTickClears : Prop :=
  ∀ s : State, ¬ (s.cfg.rasterEnable = true ∧ s.rasterIrqLine = 255) →
    exec (.scanTick 255) s = .next { s with rs :=
      { vblankFlag := false, rasterMachineActive := true, lastRedrawnLine := 0, currentScanline := 255 } }

/-- `SCAN_TICK 250` with the quirk flag, not taken by the raster branch (`47_raster_fsm.md` R256): `END_OF_VBLANK_IRQ`
is raised and no state but the two recorded fields (R251: decision D23, log entry 19) is written. -/
def Obligations.QuirkTickRaisesOnly : Prop :=
  ∀ s : State, s.cfg.quirkEovb250 = true → ¬ (s.cfg.rasterEnable = true ∧ s.rasterIrqLine = 250) →
    exec (.scanTick 250) s = .next { s with
      rs := { s.rs with rasterMachineActive := true, currentScanline := 250 }
      out := { s.out with irqs := s.out.irqs ++ [.endOfVblank] } }

/-- Every other tick writes the two recorded fields (`47_raster_fsm.md` R251: decision D23, log entry 19) and does
nothing more (R257). -/
def Obligations.OtherTicksOnlyRecord : Prop :=
  ∀ (s : State) (line : Half), ¬ (s.cfg.rasterEnable = true ∧ (line.toNat : Int) = s.rasterIrqLine) →
    line ≠ 248 → line ≠ 255 → ¬ (line = 250 ∧ s.cfg.quirkEovb250 = true) →
    exec (.scanTick line) s =
      .next { s with rs := { s.rs with rasterMachineActive := true, currentScanline := line } }

/-- `STATUS_RD` responds 0x01 when the vblank flag is set and 0x00 when it is clear, and changes nothing
(`47_raster_fsm.md` R260; the bit's place is the spec's decisions D4 and D29, log entry 8). -/
def Obligations.StatusReadShowsVblank : Prop :=
  ∀ s : State, exec .statusRd s =
    .next { s with out := { s.out with response := some (if s.rs.vblankFlag then 0x01 else 0x00) } }

/-- `FRAME_START` resets the raster state and nothing else (`47_raster_fsm.md` R261; the command that carries the
frame top is the spec's decision D7, log entry 10). -/
def Obligations.FrameStartResetsRasterState : Prop :=
  ∀ s : State, exec .frameStart s = .next { s with rs :=
    { vblankFlag := false, rasterMachineActive := false, lastRedrawnLine := 0, currentScanline := 0 } }

/-- Property P3 (`47_raster_fsm.md` R259): over one frame of ticks 0 to 255 after the frame start, on any machine and
with any trigger line, each line 0 to 247 lies in exactly one of the bands handed to `PARTIAL_REFRESH`. The cover is
exact because the raster band includes the trigger line, the spec's own resolution of conflict C1 (log entry 30). -/
def Obligations.FrameBandsCoverEachLineOnce : Prop :=
  ∀ (s : State) (n : Int), 0 ≤ n → n < 248 →
    coverCount (tickBands { s with rs := RasterState.top } frameLines) n = 1

/-! ## The partial refresh -/

/-- An empty clipped band has no effect at all (`45_partial_refresh.md` R191, R193; that step 7 is skipped too is the
spec's decision D34, log entry 20). -/
def Obligations.EmptyBandHasNoEffect : Prop :=
  ∀ (s : State) (a b : Int), min b s.cfg.visEnd ≤ max a s.cfg.visTop → partialRefresh a b s = s

/-- A non-empty refresh resolves the scroll of every layer that exists (`45_partial_refresh.md` R195 to R198): Y from
the registers; X from the 512 entries of the playfield's table in VRAM at 0xF400, 0xF800 or 0xFC00, two bytes each,
low byte first (`20_memory.md` R66), or from the registers; each with the layer's shift, modulo 65536 (the truncation
is the spec's decision D16, log entry 21). -/
def Obligations.RefreshResolvesScroll : Prop :=
  ∀ (s : State) (a b : Int), s.Canonical → max a s.cfg.visTop < min b s.cfg.visEnd →
    ∀ L : Layer, (L = .pf1h → s.cfg.speedup = true) →
      let t := partialRefresh a b s
      (t.scroll.get L).y = s.scrollY (playfieldOf L) ∧
      if (s.layerCtl (playfieldOf L)).rowscroll then
        (t.scroll.get L).rows = .all512 ∧
        ∀ r, r < 512 → ((t.rsx L r).toNat : Int) = (rowWord s (playfieldOf L) r + layerShift L) % 65536
      else
        (t.scroll.get L).rows = .one ∧
        ((t.rsx L 0).toNat : Int) = ((s.scrollX (playfieldOf L)).toNat + layerShift L) % 65536

/-- A non-empty refresh brings the tile caches up to date (`40_tile_decode.md` R125): every dirty tile of every layer
that exists (the high layer only under `Cfg.SPEEDUP`, `10_state.md` R38) is decoded from VRAM at the present bank
pointer with the layer's variant (R124), every other tile keeps its entry, every dirty bit is cleared; a layer that
does not exist keeps all. That every layer is updated at once is the spec's decision D20 (log entry 22); the high
layer is D21 (log entry 15), the map's shape D11 (log entry 25). -/
def Obligations.RefreshDecodesDirtyTiles : Prop :=
  ∀ (s : State) (a b : Int), s.Canonical → max a s.cfg.visTop < min b s.cfg.visEnd →
    ∀ (L : Layer) (k : Nat), k < mapWidth L / 8 * 64 →
      let t := partialRefresh a b s
      if L = .pf1h ∧ s.cfg.speedup = false then t.isDirty L k = s.isDirty L k ∧ t.cacheEntry L k = s.cacheEntry L k
      else
        t.isDirty L k = false ∧
        t.cacheEntry L k = if s.isDirty L k then decodeTile s (variantOf L) (s.tileAddr L k) else s.cacheEntry L k

/-- The result of the composite, pixel by pixel (`45_partial_refresh.md` R209): inside the clip rectangle of a
non-empty band, each pixel is the first of R209's nine cases, taken over the caches and scroll the refresh leaves
(`RefreshResolvesScroll`, `RefreshDecodesDirtyTiles`). `compositePixel` writes the cases out in plain arithmetic: the
layer a playfield shows (`10_state.md` R39), the row, column and tile under the position (R203), the pen with its
flips (`40_tile_decode.md` R127), the high pens (R204), the pixel of a sprite cell (`46_sprite_engine.md` R235). It
rests on the spec's decisions on the scroll convention (D16), on pens and priority (D17, D33), on the enable flag
(D18), on tile order (D11), on pixels (D13, D14), on the row mapping and columns (D15), on the high layer and the
narrow playfield 2 (D21, D19) and on the sprite layout and geometry (D9, D10), and on the key of a pattern ROM's
table, which is the model's: log entries 2, 11, 12, 15, 21, 23 to 26 and 29. -/
def Obligations.RefreshShowsTopmostPixel : Prop :=
  ∀ (s : State) (a b : Int) (y x : Nat), s.cfg.wf = true → fbWf s.fb = true →
    max a s.cfg.visTop + 128 ≤ y → (y : Int) < min b s.cfg.visEnd + 128 →
    s.cfg.visLeft ≤ x → x ≤ s.cfg.visRight →
    let t := partialRefresh a b s
    t.pixel y x = compositePixel t x y

/-- What a refresh never writes (`45_partial_refresh.md` R192, R213): every pixel outside the clip rectangle of the
band is as it was. The row mapping and the columns are the spec's decision D15 (log entry 26). -/
def Obligations.RefreshWritesOnlyItsBand : Prop :=
  ∀ (s : State) (a b : Int) (y x : Nat), s.cfg.wf = true → fbWf s.fb = true → x < 512 →
    ¬ (max a s.cfg.visTop + 128 ≤ y ∧ (y : Int) < min b s.cfg.visEnd + 128 ∧
       s.cfg.visLeft ≤ x ∧ x ≤ s.cfg.visRight) →
    (partialRefresh a b s).pixel y x = s.pixel y x

/-- A refresh writes the resolved scroll, the caches, the dirty bits, the framebuffer and the last redrawn line, and
nothing else (`45_partial_refresh.md` R190). -/
def Obligations.RefreshFrame : Prop :=
  ∀ (s : State) (a b : Int),
    let t := partialRefresh a b s
    t = { s with
          scroll := t.scroll
          cache := t.cache
          dirty := t.dirty
          fb := t.fb
          rs := { s.rs with lastRedrawnLine := t.rs.lastRedrawnLine } }

/-! ## The sprite engine -/

/-- `DECODE_SPRITE` (`46_sprite_engine.md` R232) in plain arithmetic over the eight bytes at `offs`. The bit positions
are the spec's decision D9 (log entry 11). -/
def Obligations.SpriteDecodeReadsEightBytes : Prop :=
  ∀ (s : State) (offs : Nat),
    let b := fun k => (s.sprBufByte (offs + k)).toNat
    let r := decodeSprite s offs
    r.y.toNat = (b 1 * 256 + b 0) % 512 ∧ r.x.toNat = (b 7 * 256 + b 6) % 512 ∧
    r.patternBase.toNat = b 3 * 256 + b 2 ∧ r.paletteId.toNat = b 4 % 64 ∧
    r.priorityAboveAll = decide (128 ≤ b 4) ∧ r.flipX = decide (b 5 % 2 = 1) ∧ r.flipY = decide (b 5 / 2 % 2 = 1) ∧
    r.yCells = 2 ^ (b 1 / 2 % 4) ∧ r.xCells = 2 ^ (b 1 / 8 % 4)

/-- `ListStart()` and the records visited (`46_sprite_engine.md` R231, R237): on chip 0 the list-length byte as it
stands says how many, on chip 1 it is all 256, from the highest offset down to 0. -/
def Obligations.SpriteListIsVisitedDescending : Prop :=
  ∀ s : State,
    listStart s =
      (match s.cfg.spriteChip with
        | .zero => ((0x100 - ((s.spriteReg 0).toNat : Int)) % 0x100) * 8 - 8
        | .one => 0x7F8) ∧
    (recordCount s : Int) * 8 = listStart s + 8 ∧
    visitedRecords s = ((List.range (recordCount s)).map fun n => decodeSprite s (8 * n)).reverse

/-- Properties P4 and P5 (`46_sprite_engine.md` R236, R240): a pass blits exactly the cells of the visited records
that are on screen and whose priority bit selects the pass; a record with `x` = 0 or `y` = 0 is blitted in neither. -/
def Obligations.PassBlitsItsOnScreenRecords : Prop :=
  ∀ (s : State) (above : Bool) (b : Blit),
    b ∈ passBlits s above ↔
      ∃ n, n < recordCount s ∧ (decodeSprite s (8 * n)).x ≠ 0 ∧ (decodeSprite s (8 * n)).y ≠ 0 ∧
        (decodeSprite s (8 * n)).priorityAboveAll = above ∧ b ∈ spriteBlits s.cfg (decodeSprite s (8 * n))

/-- The running loops of `46_sprite_engine.md` R230 draw, column by column and row by row, the cells of the closed
forms R233, R234 and R238. The geometry is the spec's decision D10 (log entry 12). -/
def Obligations.SpriteCellsInClosedForm : Prop :=
  ∀ (c : Cfg) (r : SpriteRecord),
    spriteBlits c r = (List.range r.xCells).flatMap fun i => (List.range r.yCells).map fun j => cellOf c r i j

/-! ## Invariants and whole-machine rules -/

/-- Every step keeps the invariant: configuration legal, contents canonical, `lc` and the raster line the decode of
the bytes latched (`10_state.md` R28, R29), every pixel legal (R46 b, f). The reset values a `RESET` step establishes
are the spec's decision D27 (log entry 5). -/
def Obligations.StepKeepsInvariant : Prop :=
  ∀ s t : State, s.Inv → step s = .next t → t.Inv

/-- The reset state meets the invariant; its values are the spec's decision D27 (log entry 5). -/
def Obligations.ResetMeetsInvariant : Prop := State.reset.Inv

/-- Every step keeps the tile caches current (`20_memory.md` R75, R77): a clean tile of a coherent layer holds the
decode of its VRAM bytes as they stand, whatever is written, moved, drawn or reset. -/
def Obligations.StepKeepsCachesCurrent : Prop :=
  ∀ s t : State, s.Inv → s.CachesCurrent → step s = .next t → t.CachesCurrent

/-- The reset state has current caches: every tile is dirty (`10_state.md` R42, decision D27, log entry 5). -/
def Obligations.ResetHasCurrentCaches : Prop := State.reset.CachesCurrent

/-- After a non-empty refresh every tile of every coherent layer is drawn from its VRAM bytes as they stand
(`20_memory.md` R77, `40_tile_decode.md` R125; decision D20, log entry 22). -/
def Obligations.RefreshDrawsFromCurrentVram : Prop :=
  ∀ (s : State) (a b : Int), s.Inv → s.CachesCurrent → max a s.cfg.visTop < min b s.cfg.visEnd →
    ∀ (L : Layer) (k : Nat), s.coherentLayer L = true → k < L.tiles →
      (partialRefresh a b s).cacheEntry L k = decodeTile s L.variant (s.tileAddr L k)

/-- No step changes the configuration (`00_scope.md` R7). -/
def Obligations.StepKeepsConfiguration : Prop :=
  ∀ s t : State, step s = .next t → t.cfg = s.cfg

/-- Each component is changed only by the commands `10_state.md` R20 names as its writers, and each kind of output is
given only by the commands of `60_exceptions.md` R276 and `30_encoding.md` R97 (decisions D4, D5, D7 and D25 among
them: log entries 8 to 10 and 13). -/
def Obligations.OnlyNamedWritersChangeEachComponent : Prop :=
  ∀ (i : Instr) (s t : State), exec i s = .next t →
    t.cfg = s.cfg ∧ t.port = s.port ∧
    (isVramWr i = false → t.vram = s.vram) ∧
    (isSprWr i = false → isSprctlWr i = false → t.sprLive = s.sprLive) ∧
    (isSprctlWr i = false → isSprbufTrig i = false → t.sprBuf = s.sprBuf) ∧
    (isPfctlWr i = false → t.pfctl = s.pfctl) ∧
    (isMctlWr i = false → t.mctl = s.mctl ∧ t.lc = s.lc ∧ t.rasterIrqLine = s.rasterIrqLine ∧
      t.warnRasterCfg = s.warnRasterCfg ∧ t.out.warn = s.out.warn) ∧
    (isSprctlWr i = false → t.sprctl = s.sprctl) ∧
    (isScanTick i = false → isFrameStart i = false → t.rs = s.rs) ∧
    (isScanTick i = false → t.cache = s.cache ∧ t.scroll = s.scroll ∧ t.fb = s.fb) ∧
    (isVramWr i = false → isMctlWr i = false → isScanTick i = false → t.dirty = s.dirty) ∧
    (isSprctlWr i = false → isSprbufTrig i = false → isScanTick i = false → t.out.irqs = s.out.irqs) ∧
    (responds i = false → t.out.response = s.out.response)

/-- The framebuffer outside the visible window is never written by a command (`10_state.md` R35, R46 e). -/
def Obligations.PixelsOutsideWindowNeverChange : Prop :=
  ∀ (i : Instr) (s t : State) (y x : Nat), s.Inv → exec i s = .next t → x < 512 →
    ¬ visibleWindow s.cfg y x → t.pixel y x = s.pixel y x

/-- One command raises at most one request (`60_exceptions.md` R278), and responds with a byte exactly when it is
`VRAM_RD`, `SPR_RD` or `STATUS_RD` (`30_encoding.md` R97; decisions D4 and D25, log entries 8 and 13). -/
def Obligations.StepOutputIsBounded : Prop :=
  ∀ (s t : State) (w : CmdWord) (rest : List PortEvent), s.port = .command w :: rest → step s = .next t →
    t.out.irqs.length ≤ 1 ∧ t.out.response.isSome = responds (decode w)

/-- Writing the same byte twice in a row leaves the same state as writing it once, for `VRAM_WR`, `SPR_WR`, `PFCTL_WR`
and `MCTL_WR` (`20_memory.md` R71). -/
def Obligations.RegisterAndMemoryWritesAreIdempotent : Prop :=
  ∀ (i : Instr) (s t : State), s.Inv →
    (isVramWr i = true ∨ isSprWr i = true ∨ isPfctlWr i = true ∨ isMctlWr i = true) →
    exec i s = .next t → exec i t = .next t

/-- Without the speed-up path the high layer is never written (`10_state.md` R46 d; the layer is the spec's decision
D21, log entry 15). -/
def Obligations.HighLayerIdleWithoutSpeedup : Prop :=
  ∀ (i : Instr) (s t : State), s.cfg.speedup = false → exec i s = .next t →
    t.cache.pf1h = s.cache.pf1h ∧ t.dirty.pf1h = s.dirty.pf1h ∧ t.scroll.pf1h = s.scroll.pf1h

/-- The vector the CPU sees for a request is the base plus the index of its source (`60_exceptions.md` R279), and the
four sources have four codes, 0 to 3 (`30_encoding.md` R108). Both are the spec's decision D25 (log entry 13). -/
def Obligations.RequestVectorsAndCodes : Prop :=
  (∀ c : Cfg, irqVector c .vblank = c.irqVectorBase + c.vectorOf.vblank ∧
    irqVector c .spriteBufferComplete = c.irqVectorBase + c.vectorOf.spriteBufferComplete ∧
    irqVector c .raster = c.irqVectorBase + c.vectorOf.raster ∧
    irqVector c .endOfVblank = c.irqVectorBase + c.vectorOf.endOfVblank) ∧
  irqCode .vblank = 0 ∧ irqCode .spriteBufferComplete = 1 ∧ irqCode .raster = 2 ∧ irqCode .endOfVblank = 3
end

