-- ==== Sys2Proof/Laws/Fields.lean ====
section
/-! SUPPORT. What the bit-field helpers of the decoder, of `Machine/Operands.lean` and of `Machine/Flags.lean` are in
plain arithmetic: the fields of a packed word, byte pairs, banks, tile indexes, and the fields of a layer-select byte. -/

namespace Sys2Proof

/-! ## The fields of a command word -/

/-- Each bit of a packed word comes from one field. -/
theorem getLsbD_packWord (op sel : BitVec 4) (addr : Half) (data : Byte) (i : Nat) :
    (packWord op sel addr data).getLsbD i =
      if i < 8 then data.getLsbD i else if i < 24 then addr.getLsbD (i - 8)
      else if i < 28 then sel.getLsbD (i - 24) else op.getLsbD (i - 28) := by
  unfold packWord
  simp only [BitVec.getLsbD_append]
  repeat' split
  all_goals first | rfl | omega

@[simp] theorem opField_packWord (op sel : BitVec 4) (addr : Half) (data : Byte) :
    opField (packWord op sel addr data) = op := by
  refine BitVec.eq_of_getLsbD_eq fun i hi => ?_
  rw [opField, BitVec.getLsbD_extractLsb', getLsbD_packWord, if_neg (by omega), if_neg (by omega), if_neg (by omega)]
  simp [hi]

@[simp] theorem selField_packWord (op sel : BitVec 4) (addr : Half) (data : Byte) :
    selField (packWord op sel addr data) = sel := by
  refine BitVec.eq_of_getLsbD_eq fun i hi => ?_
  rw [selField, BitVec.getLsbD_extractLsb', getLsbD_packWord, if_neg (by omega), if_neg (by omega), if_pos (by omega)]
  simp [hi]

@[simp] theorem addrField_packWord (op sel : BitVec 4) (addr : Half) (data : Byte) :
    addrField (packWord op sel addr data) = addr := by
  refine BitVec.eq_of_getLsbD_eq fun i hi => ?_
  rw [addrField, BitVec.getLsbD_extractLsb', getLsbD_packWord, if_neg (by omega), if_pos (by omega)]
  simp [hi]

@[simp] theorem dataField_packWord (op sel : BitVec 4) (addr : Half) (data : Byte) :
    dataField (packWord op sel addr data) = data := by
  refine BitVec.eq_of_getLsbD_eq fun i hi => ?_
  rw [dataField, BitVec.getLsbD_extractLsb', getLsbD_packWord, if_pos (by omega)]
  simp [hi]

/-- A word is its four fields packed. -/
theorem packWord_fields (w : CmdWord) : packWord (opField w) (selField w) (addrField w) (dataField w) = w := by
  refine BitVec.eq_of_getLsbD_eq fun i hi => ?_
  rw [getLsbD_packWord]
  simp only [opField, selField, addrField, dataField, BitVec.getLsbD_extractLsb']
  split
  · simp; omega
  · split
    · rw [show 8 + (i - 8) = i by omega]; simp; omega
    · split
      · rw [show 24 + (i - 24) = i by omega]; simp; omega
      · rw [show 28 + (i - 28) = i by omega]; simp; omega

/-- Masking works field by field. -/
theorem packWord_and (op sel op' sel' : BitVec 4) (addr addr' : Half) (data data' : Byte) :
    packWord op sel addr data &&& packWord op' sel' addr' data' =
      packWord (op &&& op') (sel &&& sel') (addr &&& addr') (data &&& data') := by
  refine BitVec.eq_of_getLsbD_eq fun i hi => ?_
  simp only [BitVec.getLsbD_and, getLsbD_packWord]
  split
  · rfl
  · split
    · rfl
    · split <;> rfl

namespace Machine

/-! ## Byte pairs, banks and indexes -/

/-- A byte pair, high byte first (`20_memory.md` R60). -/
theorem toNat_bytePair (hi lo : Byte) : (hi ++ lo : Half).toNat = hi.toNat * 256 + lo.toNat := by
  rw [BitVec.toNat_append, ← Nat.shiftLeft_add_eq_or_of_lt lo.isLt, Nat.shiftLeft_eq]

theorem bankOf_toNat (offset : Half) : (bankOf offset).toNat = offset.toNat / 0x4000 * 0x4000 := by
  have h : (offset &&& (0xC000 : Half)) = (offset >>> 14) <<< 14 := by
    refine BitVec.eq_of_getLsbD_eq fun i hi => ?_
    simp only [BitVec.getLsbD_and, BitVec.getLsbD_shiftLeft, BitVec.getLsbD_ushiftRight]
    interval_cases i <;> simp
  unfold bankOf
  rw [h, BitVec.toNat_shiftLeft, BitVec.toNat_ushiftRight, Nat.shiftLeft_eq, Nat.shiftRight_eq_div_pow]
  have := offset.isLt
  omega

theorem toNat_and_low (x : Half) {m n : Nat} (hm : m < 2 ^ 16) (h : m = 2 ^ n - 1) :
    (x &&& BitVec.ofNat 16 m).toNat = x.toNat % 2 ^ n := by
  rw [BitVec.toNat_and, BitVec.toNat_ofNat, Nat.mod_eq_of_lt hm, h, Nat.and_two_pow_sub_one_eq_mod]

theorem narrowIndex_eq (offset : Half) : narrowIndex offset = offset.toNat % 0x4000 / 4 :=
  congrArg (· / 4) (toNat_and_low offset (n := 14) (by decide) rfl)

theorem wideIndex_eq (offset : Half) : wideIndex offset = offset.toNat % 0x8000 / 4 :=
  congrArg (· / 4) (toNat_and_low offset (n := 15) (by decide) rfl)

/-- `4 t` lies inside the window of a layer that has tile `t` (`20_memory.md` R65). -/
theorem windowMask_tile {L : Layer} {t : Nat} (h : t < L.tiles) :
    (BitVec.ofNat 16 (4 * t) &&& L.windowMask).toNat = 4 * t := by
  unfold Layer.tiles at h
  unfold Layer.windowMask
  split at h
  · rw [if_pos ‹_›]
    refine (toNat_and_low _ (n := 15) (by decide) rfl).trans ?_
    rw [BitVec.toNat_ofNat]; omega
  · rw [if_neg ‹_›]
    refine (toNat_and_low _ (n := 14) (by decide) rfl).trans ?_
    rw [BitVec.toNat_ofNat]; omega

theorem tileAddr_toNat (s : State) {L : Layer} {t : Nat} (h : t < L.tiles) :
    (s.tileAddr L t).toNat = ((s.layerBase L).toNat + 4 * t) % 0x10000 := by
  rw [State.tileAddr, BitVec.toNat_add, windowMask_tile h]

/-- The raster line in plain arithmetic (`43_master_control.md` R166). -/
theorem rasterLine_eq (high low : Byte) : rasterLine high low = (high.toNat : Int) * 256 + low.toNat - 128 := by
  rw [rasterLine, toNat_bytePair]; push_cast; rfl

/-! ## The layer-select byte (`43_master_control.md` R163) -/

theorem bankPtr_toNat (value : Byte) : (bankPtr value).toNat = value.toNat % 4 * 0x4000 := by
  revert value; decide

theorem selectEnabled_eq (value : Byte) : selectEnabled value = (value &&& 0x10 == 0) := by revert value; decide

theorem selectRowscroll_eq (value : Byte) : selectRowscroll value = (value &&& 0x40 != 0) := by revert value; decide

theorem wideBit_eq (value : Byte) : value.getLsbD 2 = (value &&& 0x04 != 0) := by revert value; decide

end Machine

end Sys2Proof
end

