-- ==== Sys2Proof/Laws/Cells.lean ====
section
/-! SUPPORT. The laws of sparse contents: what an address reads after an update, that an update keeps the canonical form,
and that canonical contents which read alike are equal. -/

namespace Sys2Proof.Machine

variable {α : Type} {d : α}

/-- Strictly rising addresses. -/
def Cells.Rising (m : Cells α) : Prop := m.Pairwise (fun a b => a.1 < b.1)

theorem Cells.risingFrom_iff (lo : Nat) (m : Cells α) :
    Cells.risingFrom lo m = true ↔ Cells.Rising m ∧ ∀ c ∈ m, lo ≤ c.1 := by
  induction m generalizing lo with
  | nil => simp [Cells.risingFrom, Cells.Rising]
  | cons c m ih =>
    obtain ⟨k, v⟩ := c
    simp only [Cells.risingFrom, Bool.and_eq_true, decide_eq_true_eq, ih, Cells.Rising, List.pairwise_cons,
      List.mem_cons, forall_eq_or_imp]
    constructor
    · rintro ⟨hlo, hr, hk⟩
      exact ⟨⟨fun c hc => hk c hc, hr⟩, hlo, fun c hc => by have := hk c hc; omega⟩
    · rintro ⟨⟨hk, hr⟩, hlo, -⟩
      exact ⟨hlo, hr, fun c hc => hk c hc⟩

/-- What the canonical form says, entry by entry. -/
theorem Cells.wf_iff [DecidableEq α] (d : α) (size : Nat) (m : Cells α) :
    Cells.wf d size m = true ↔ Cells.Rising m ∧ ∀ c ∈ m, c.1 < size ∧ c.2 ≠ d := by
  simp [Cells.wf, Cells.risingFrom_iff]

@[simp] theorem Cells.get_nil (d : α) (a : Nat) : Cells.get d [] a = d := rfl

@[simp] theorem Cells.wf_nil [DecidableEq α] (d : α) (size : Nat) : Cells.wf d size [] = true := rfl

theorem Cells.get_unlisted {m : Cells α} {a : Nat} (h : ∀ c ∈ m, c.1 ≠ a) : Cells.get d m a = d := by
  induction m with
  | nil => rfl
  | cons c m ih =>
    obtain ⟨k, v⟩ := c
    have hk : k ≠ a := h (k, v) (by simp)
    simp [Cells.get, hk, ih fun c hc => h c (by simp [hc])]

theorem Cells.get_append_right {m n : Cells α} {a : Nat} (h : ∀ c ∈ m, c.1 ≠ a) :
    Cells.get d (m ++ n) a = Cells.get d n a := by
  induction m with
  | nil => rfl
  | cons c m ih =>
    obtain ⟨k, v⟩ := c
    have hk : k ≠ a := h (k, v) (by simp)
    simp [Cells.get, hk, ih fun c hc => h c (by simp [hc])]

theorem Cells.get_append_left {m n : Cells α} {a : Nat} (h : ∀ c ∈ n, c.1 ≠ a) :
    Cells.get d (m ++ n) a = Cells.get d m a := by
  induction m with
  | nil => simpa using Cells.get_unlisted h
  | cons c m ih => obtain ⟨k, v⟩ := c; by_cases hk : k = a <;> simp [Cells.get, hk, ih]

theorem Cells.takeWhile_lt {m : Cells α} {k : Nat} {c : Nat × α}
    (h : c ∈ m.takeWhile (fun c => decide (c.1 < k))) : c.1 < k := by
  simpa using List.mem_takeWhile_imp h

theorem Cells.dropWhile_ge {m : Cells α} (hm : Cells.Rising m) {k : Nat} {c : Nat × α}
    (h : c ∈ m.dropWhile (fun c => decide (c.1 < k))) : k ≤ c.1 := by
  induction m with
  | nil => simp at h
  | cons b m ih =>
    rw [Cells.Rising, List.pairwise_cons] at hm
    by_cases hb : b.1 < k
    · rw [List.dropWhile_cons_of_pos (by simpa using hb)] at h
      exact ih hm.2 h
    · rw [List.dropWhile_cons_of_neg (by simpa using hb)] at h
      rcases List.mem_cons.mp h with rfl | h
      · omega
      · have := hm.1 c h; omega

theorem Cells.rising_dropWhile {m : Cells α} (hm : Cells.Rising m) (p : Nat × α → Bool) :
    Cells.Rising (m.dropWhile p) := List.Pairwise.sublist (List.dropWhile_sublist p) hm

theorem Cells.headAt_eq_get {m : Cells α} (hm : Cells.Rising m) {k : Nat} (hk : ∀ c ∈ m, k ≤ c.1) :
    Cells.headAt d k m = Cells.get d m k := by
  cases m with
  | nil => rfl
  | cons c m =>
    obtain ⟨a, v⟩ := c
    rw [Cells.Rising, List.pairwise_cons] at hm
    by_cases h : a = k
    · simp [Cells.headAt, Cells.get, h]
    · have ha : k ≤ a := hk (a, v) (by simp)
      have : Cells.get d m k = d := Cells.get_unlisted fun c hc => by have := hm.1 c hc; simp at this; omega
      simp [Cells.headAt, Cells.get, h, this]

theorem Cells.dropAt_sublist (k : Nat) (m : Cells α) : (Cells.dropAt k m).Sublist m := by
  cases m with
  | nil => simp [Cells.dropAt]
  | cons c m => obtain ⟨a, v⟩ := c; by_cases h : a = k <;> simp [Cells.dropAt, h]

theorem Cells.dropAt_gt {m : Cells α} (hm : Cells.Rising m) {k : Nat} (hk : ∀ c ∈ m, k ≤ c.1) {c : Nat × α}
    (h : c ∈ Cells.dropAt k m) : k < c.1 := by
  cases m with
  | nil => simp [Cells.dropAt] at h
  | cons b m =>
    obtain ⟨a, v⟩ := b
    rw [Cells.Rising, List.pairwise_cons] at hm
    have ha : k ≤ a := hk (a, v) (by simp)
    by_cases hak : a = k
    · simp only [Cells.dropAt, hak, if_true] at h
      have := hm.1 c h; simp at this; omega
    · simp only [Cells.dropAt, hak, if_false, List.mem_cons] at h
      rcases h with rfl | h
      · simp; omega
      · have := hm.1 c h; simp at this; omega

theorem Cells.get_dropAt {m : Cells α} {k a : Nat} (h : a ≠ k) :
    Cells.get d (Cells.dropAt k m) a = Cells.get d m a := by
  cases m with
  | nil => rfl
  | cons c m =>
    obtain ⟨b, v⟩ := c
    by_cases hb : b = k
    · simp [Cells.dropAt, Cells.get, hb, Ne.symm h]
    · simp [Cells.dropAt, hb]

section

variable [DecidableEq α]

theorem Cells.mem_put {k : Nat} {v : α} {m : Cells α} {c : Nat × α} (h : c ∈ Cells.put d k v m) :
    (c = (k, v) ∧ v ≠ d) ∨ c ∈ m := by
  unfold Cells.put at h
  split at h
  · exact .inr h
  · rcases List.mem_cons.mp h with rfl | h
    · exact .inl ⟨rfl, ‹_›⟩
    · exact .inr h

theorem Cells.get_put {k a : Nat} {v : α} {m : Cells α} (hm : ∀ c ∈ m, c.1 ≠ k) :
    Cells.get d (Cells.put d k v m) a = if a = k then v else Cells.get d m a := by
  unfold Cells.put
  by_cases hv : v = d
  · rw [if_pos hv]
    by_cases ha : a = k
    · subst ha; rw [if_pos rfl, Cells.get_unlisted hm, hv]
    · rw [if_neg ha]
  · by_cases ha : a = k
    · simp [hv, ha, Cells.get]
    · simp [hv, ha, Cells.get, Ne.symm ha]

theorem Cells.mem_update_key {f : Nat → α → α} {ks : List Nat} {m : Cells α} {c : Nat × α}
    (h : c ∈ Cells.update d f ks m) : c.1 ∈ ks ∨ ∃ b ∈ m, b.1 = c.1 := by
  induction ks generalizing m with
  | nil => exact .inr ⟨c, h, rfl⟩
  | cons k ks ih =>
    simp only [Cells.update, List.mem_append] at h
    rcases h with h | h
    · exact .inr ⟨c, (List.takeWhile_sublist _).subset h, rfl⟩
    · rcases Cells.mem_put h with ⟨rfl, -⟩ | h
      · simp
      · rcases ih h with h | ⟨b, hb, hbc⟩
        · simp [h]
        · exact .inr ⟨b, (List.dropWhile_sublist _).subset ((Cells.dropAt_sublist _ _).subset hb), hbc⟩

/-- What `Cells.update` does to a rising list: its keys take their new value, every other address keeps its own. -/
theorem Cells.get_update {f : Nat → α → α} {ks : List Nat} {m : Cells α} (hks : ks.Pairwise (· < ·))
    (hm : Cells.Rising m) (a : Nat) :
    Cells.get d (Cells.update d f ks m) a = if a ∈ ks then f a (Cells.get d m a) else Cells.get d m a := by
  induction ks generalizing m with
  | nil => simp [Cells.update]
  | cons k ks ih =>
    rw [List.pairwise_cons] at hks
    set rest := m.dropWhile (fun c => decide (c.1 < k)) with hrest
    set below := m.takeWhile (fun c => decide (c.1 < k)) with hbelow
    have hsplit : below ++ rest = m := List.takeWhile_append_dropWhile
    have hr : Cells.Rising rest := Cells.rising_dropWhile hm _
    have hge : ∀ c ∈ rest, k ≤ c.1 := fun c hc => Cells.dropWhile_ge hm hc
    have hlt : ∀ c ∈ below, c.1 < k := fun c hc => Cells.takeWhile_lt hc
    have hd : Cells.Rising (Cells.dropAt k rest) := List.Pairwise.sublist (Cells.dropAt_sublist k rest) hr
    have hU : ∀ c ∈ Cells.update d f ks (Cells.dropAt k rest), k < c.1 := by
      intro c hc
      rcases Cells.mem_update_key hc with h | ⟨b, hb, hbc⟩
      · exact hks.1 _ h
      · rw [← hbc]; exact Cells.dropAt_gt hr hge hb
    have hupd : Cells.update d f (k :: ks) m =
        below ++ Cells.put d k (f k (Cells.headAt d k rest)) (Cells.update d f ks (Cells.dropAt k rest)) := rfl
    rw [hupd]
    by_cases hak : a < k
    · have hnot : a ∉ k :: ks := by
        intro h
        rcases List.mem_cons.mp h with rfl | h
        · omega
        · have := hks.1 _ h; omega
      rw [if_neg hnot, Cells.get_append_left, ← hsplit, Cells.get_append_left]
      · intro c hc; have := hge c hc; omega
      · intro c hc
        rcases Cells.mem_put hc with ⟨rfl, -⟩ | hc
        · simp; omega
        · have := hU c hc; omega
    · rw [Cells.get_append_right fun c hc => by have := hlt c hc; omega]
      rw [Cells.get_put fun c hc => by have := hU c hc; omega]
      have hmr : Cells.get d m a = Cells.get d rest a := by
        rw [← hsplit, Cells.get_append_right fun c hc => by have := hlt c hc; omega]
      by_cases hk : a = k
      · subst hk; simp [hmr, Cells.headAt_eq_get hr hge]
      · rw [if_neg hk, ih hks.2 hd, Cells.get_dropAt hk, hmr]; simp [hk]

/-- `Cells.update` keeps the canonical form. -/
theorem Cells.wf_update {f : Nat → α → α} {ks : List Nat} {m : Cells α} {size : Nat} (hks : ks.Pairwise (· < ·))
    (hsize : ∀ k ∈ ks, k < size) (hm : Cells.wf d size m = true) : Cells.wf d size (Cells.update d f ks m) = true := by
  rw [Cells.wf_iff] at hm ⊢
  obtain ⟨hm, hv⟩ := hm
  induction ks generalizing m with
  | nil => exact ⟨hm, hv⟩
  | cons k ks ih =>
    rw [List.pairwise_cons] at hks
    set rest := m.dropWhile (fun c => decide (c.1 < k)) with hrest
    set below := m.takeWhile (fun c => decide (c.1 < k)) with hbelow
    have hr : Cells.Rising rest := Cells.rising_dropWhile hm _
    have hge : ∀ c ∈ rest, k ≤ c.1 := fun c hc => Cells.dropWhile_ge hm hc
    have hlt : ∀ c ∈ below, c.1 < k := fun c hc => Cells.takeWhile_lt hc
    have hsub : (Cells.dropAt k rest).Sublist m :=
      (Cells.dropAt_sublist k rest).trans (List.dropWhile_sublist _)
    obtain ⟨ihr, ihv⟩ := ih hks.2 (fun a ha => hsize a (by simp [ha])) (List.Pairwise.sublist hsub hm)
      fun c hc => hv c (hsub.subset hc)
    have hU : ∀ c ∈ Cells.update d f ks (Cells.dropAt k rest), k < c.1 := by
      intro c hc
      rcases Cells.mem_update_key hc with h | ⟨b, hb, hbc⟩
      · exact hks.1 _ h
      · rw [← hbc]; exact Cells.dropAt_gt hr hge hb
    have hput : Cells.Rising (Cells.put d k (f k (Cells.headAt d k rest))
        (Cells.update d f ks (Cells.dropAt k rest))) := by
      unfold Cells.put
      split
      · exact ihr
      · exact List.pairwise_cons.mpr ⟨fun c hc => hU c hc, ihr⟩
    refine ⟨List.pairwise_append.mpr ⟨List.Pairwise.sublist (List.takeWhile_sublist _) hm, hput, ?_⟩, ?_⟩
    · intro a ha b hb
      have := hlt a ha
      rcases Cells.mem_put hb with ⟨rfl, -⟩ | hb
      · simpa using this
      · have := hU b hb; omega
    · intro c hc
      rcases List.mem_append.mp hc with hc | hc
      · exact hv c ((List.takeWhile_sublist _).subset hc)
      · rcases Cells.mem_put hc with ⟨rfl, hne⟩ | hc
        · exact ⟨hsize k (by simp), hne⟩
        · exact ihv c hc

/-- A write is read back, and leaves every other address alone. -/
theorem Cells.get_set {m : Cells α} {size : Nat} (hm : Cells.wf d size m = true) (a b : Nat) (v : α) :
    Cells.get d (Cells.set d m a v) b = if b = a then v else Cells.get d m b := by
  rw [Cells.set, Cells.get_update (by simp) ((Cells.wf_iff d size m).mp hm).1]
  simp

theorem Cells.wf_set {m : Cells α} {size : Nat} (hm : Cells.wf d size m = true) {a : Nat} (ha : a < size) (v : α) :
    Cells.wf d size (Cells.set d m a v) = true :=
  Cells.wf_update (by simp) (by simpa using ha) hm

omit [DecidableEq α] in
theorem Cells.get_of_mem {m : Cells α} (hm : Cells.Rising m) {c : Nat × α} (hc : c ∈ m) :
    Cells.get d m c.1 = c.2 := by
  induction m with
  | nil => simp at hc
  | cons b m ih =>
    obtain ⟨k, v⟩ := b
    rw [Cells.Rising, List.pairwise_cons] at hm
    rcases List.mem_cons.mp hc with rfl | hc
    · simp [Cells.get]
    · have := hm.1 c hc
      simp only [Cells.get]
      rw [if_neg (by simp at this; omega), ih hm.2 hc]

/-- Canonical contents that read alike are equal. -/
theorem Cells.ext_get {m n : Cells α} {size : Nat} (hm : Cells.wf d size m = true) (hn : Cells.wf d size n = true)
    (h : ∀ a, Cells.get d m a = Cells.get d n a) : m = n := by
  rw [Cells.wf_iff] at hm hn
  obtain ⟨hm, hmv⟩ := hm
  obtain ⟨hn, hnv⟩ := hn
  induction m generalizing n with
  | nil =>
    cases n with
    | nil => rfl
    | cons c n =>
      have := h c.1
      rw [Cells.get_of_mem hn (List.mem_cons_self ..)] at this
      exact absurd this.symm (hnv c (List.mem_cons_self ..)).2
  | cons b m ih =>
    cases n with
    | nil =>
      have := h b.1
      rw [Cells.get_of_mem hm (List.mem_cons_self ..)] at this
      exact absurd this (hmv b (List.mem_cons_self ..)).2
    | cons c n =>
      have hm' := List.pairwise_cons.mp hm
      have hn' := List.pairwise_cons.mp hn
      have hkey : b.1 = c.1 := by
        rcases Nat.lt_trichotomy b.1 c.1 with hlt | heq | hgt
        · have hb := h b.1
          rw [Cells.get_of_mem hm (List.mem_cons_self ..), Cells.get_unlisted (m := c :: n) ?_] at hb
          · exact absurd hb (hmv b (List.mem_cons_self ..)).2
          · intro e he
            rcases List.mem_cons.mp he with rfl | he
            · omega
            · have := hn'.1 e he; omega
        · exact heq
        · have hc := h c.1
          rw [Cells.get_of_mem hn (List.mem_cons_self ..), Cells.get_unlisted (m := b :: m) ?_] at hc
          · exact absurd hc.symm (hnv c (List.mem_cons_self ..)).2
          · intro e he
            rcases List.mem_cons.mp he with rfl | he
            · omega
            · have := hm'.1 e he; omega
      have hval : b.2 = c.2 := by
        have := h b.1
        rwa [Cells.get_of_mem hm (List.mem_cons_self ..), hkey, Cells.get_of_mem hn (List.mem_cons_self ..)] at this
      have hbc : b = c := Prod.ext hkey hval
      subst hbc
      congr 1
      refine ih (fun a => ?_) hm'.2 (fun c hc => hmv c (by simp [hc])) hn'.2 fun c hc => hnv c (by simp [hc])
      by_cases ha : b.1 = a
      · rw [Cells.get_unlisted fun e he => by have := hm'.1 e he; omega,
          Cells.get_unlisted fun e he => by have := hn'.1 e he; omega]
      · have := h a
        obtain ⟨k, v⟩ := b
        simpa [Cells.get, ha] using this

end

/-! ## Byte memories -/

@[simp] theorem Memory.read_nil (a : Nat) : Memory.read [] a = 0 := rfl

@[simp] theorem Memory.wf_nil (size : Nat) : Memory.wf size [] = true := rfl

/-- Read after write: the same address gives the byte written, every other address its own. -/
theorem Memory.read_write {m : Memory} {size : Nat} (hm : Memory.wf size m = true) (a b : Nat) (v : Byte) :
    Memory.read (Memory.write m a v) b = if b = a then v else Memory.read m b := Cells.get_set hm a b v

/-- A write inside the memory keeps its canonical form. -/
theorem Memory.wf_write {m : Memory} {size : Nat} (hm : Memory.wf size m = true) {a : Nat} (ha : a < size) (v : Byte) :
    Memory.wf size (Memory.write m a v) = true := Cells.wf_set hm ha v

/-- Canonical memories that read alike are equal. -/
theorem Memory.ext_read {m n : Memory} {size : Nat} (hm : Memory.wf size m = true) (hn : Memory.wf size n = true)
    (h : ∀ a, Memory.read m a = Memory.read n a) : m = n := Cells.ext_get hm hn h

end Sys2Proof.Machine
end

