-- ==== Sys2Proof/Laws/State.lean ====
section
/-! SUPPORT. One lemma per field of `State` per update of `Machine/Ops.lean` and `Machine/Flags.lean`, true by `rfl`:
the field written has its new value, every other field its old one. Then what the accessors read after an update. -/

namespace Sys2Proof.Machine

section

variable (s : State) (a : Half) (v : Byte)

@[simp] theorem State.setVramByte_cfg : (s.setVramByte a v).cfg = s.cfg := rfl
@[simp] theorem State.setVramByte_vram : (s.setVramByte a v).vram = Memory.write s.vram a.toNat v := rfl
@[simp] theorem State.setVramByte_sprLive : (s.setVramByte a v).sprLive = s.sprLive := rfl
@[simp] theorem State.setVramByte_sprBuf : (s.setVramByte a v).sprBuf = s.sprBuf := rfl
@[simp] theorem State.setVramByte_pfctl : (s.setVramByte a v).pfctl = s.pfctl := rfl
@[simp] theorem State.setVramByte_mctl : (s.setVramByte a v).mctl = s.mctl := rfl
@[simp] theorem State.setVramByte_sprctl : (s.setVramByte a v).sprctl = s.sprctl := rfl
@[simp] theorem State.setVramByte_lc : (s.setVramByte a v).lc = s.lc := rfl
@[simp] theorem State.setVramByte_rasterIrqLine : (s.setVramByte a v).rasterIrqLine = s.rasterIrqLine := rfl
@[simp] theorem State.setVramByte_rs : (s.setVramByte a v).rs = s.rs := rfl
@[simp] theorem State.setVramByte_cache : (s.setVramByte a v).cache = s.cache := rfl
@[simp] theorem State.setVramByte_dirty : (s.setVramByte a v).dirty = s.dirty := rfl
@[simp] theorem State.setVramByte_scroll : (s.setVramByte a v).scroll = s.scroll := rfl
@[simp] theorem State.setVramByte_fb : (s.setVramByte a v).fb = s.fb := rfl
@[simp] theorem State.setVramByte_warnRasterCfg : (s.setVramByte a v).warnRasterCfg = s.warnRasterCfg := rfl
@[simp] theorem State.setVramByte_port : (s.setVramByte a v).port = s.port := rfl
@[simp] theorem State.setVramByte_out : (s.setVramByte a v).out = s.out := rfl

end

section

variable (s : State) (a : Nat) (v : Byte)

@[simp] theorem State.setSprLiveByte_cfg : (s.setSprLiveByte a v).cfg = s.cfg := rfl
@[simp] theorem State.setSprLiveByte_vram : (s.setSprLiveByte a v).vram = s.vram := rfl
@[simp] theorem State.setSprLiveByte_sprLive : (s.setSprLiveByte a v).sprLive = Memory.write s.sprLive a v := rfl
@[simp] theorem State.setSprLiveByte_sprBuf : (s.setSprLiveByte a v).sprBuf = s.sprBuf := rfl
@[simp] theorem State.setSprLiveByte_pfctl : (s.setSprLiveByte a v).pfctl = s.pfctl := rfl
@[simp] theorem State.setSprLiveByte_mctl : (s.setSprLiveByte a v).mctl = s.mctl := rfl
@[simp] theorem State.setSprLiveByte_sprctl : (s.setSprLiveByte a v).sprctl = s.sprctl := rfl
@[simp] theorem State.setSprLiveByte_lc : (s.setSprLiveByte a v).lc = s.lc := rfl
@[simp] theorem State.setSprLiveByte_rasterIrqLine : (s.setSprLiveByte a v).rasterIrqLine = s.rasterIrqLine := rfl
@[simp] theorem State.setSprLiveByte_rs : (s.setSprLiveByte a v).rs = s.rs := rfl
@[simp] theorem State.setSprLiveByte_cache : (s.setSprLiveByte a v).cache = s.cache := rfl
@[simp] theorem State.setSprLiveByte_dirty : (s.setSprLiveByte a v).dirty = s.dirty := rfl
@[simp] theorem State.setSprLiveByte_scroll : (s.setSprLiveByte a v).scroll = s.scroll := rfl
@[simp] theorem State.setSprLiveByte_fb : (s.setSprLiveByte a v).fb = s.fb := rfl
@[simp] theorem State.setSprLiveByte_warnRasterCfg : (s.setSprLiveByte a v).warnRasterCfg = s.warnRasterCfg := rfl
@[simp] theorem State.setSprLiveByte_port : (s.setSprLiveByte a v).port = s.port := rfl
@[simp] theorem State.setSprLiveByte_out : (s.setSprLiveByte a v).out = s.out := rfl

end

section

variable (s : State) (p : Playfield) (i : Fin 8) (v : Byte)

@[simp] theorem State.setPfReg_cfg : (s.setPfReg p i v).cfg = s.cfg := rfl
@[simp] theorem State.setPfReg_vram : (s.setPfReg p i v).vram = s.vram := rfl
@[simp] theorem State.setPfReg_sprLive : (s.setPfReg p i v).sprLive = s.sprLive := rfl
@[simp] theorem State.setPfReg_sprBuf : (s.setPfReg p i v).sprBuf = s.sprBuf := rfl
@[simp] theorem State.setPfReg_pfctl : (s.setPfReg p i v).pfctl = s.pfctl.set p ((s.pfctl.get p).set i v) := rfl
@[simp] theorem State.setPfReg_mctl : (s.setPfReg p i v).mctl = s.mctl := rfl
@[simp] theorem State.setPfReg_sprctl : (s.setPfReg p i v).sprctl = s.sprctl := rfl
@[simp] theorem State.setPfReg_lc : (s.setPfReg p i v).lc = s.lc := rfl
@[simp] theorem State.setPfReg_rasterIrqLine : (s.setPfReg p i v).rasterIrqLine = s.rasterIrqLine := rfl
@[simp] theorem State.setPfReg_rs : (s.setPfReg p i v).rs = s.rs := rfl
@[simp] theorem State.setPfReg_cache : (s.setPfReg p i v).cache = s.cache := rfl
@[simp] theorem State.setPfReg_dirty : (s.setPfReg p i v).dirty = s.dirty := rfl
@[simp] theorem State.setPfReg_scroll : (s.setPfReg p i v).scroll = s.scroll := rfl
@[simp] theorem State.setPfReg_fb : (s.setPfReg p i v).fb = s.fb := rfl
@[simp] theorem State.setPfReg_warnRasterCfg : (s.setPfReg p i v).warnRasterCfg = s.warnRasterCfg := rfl
@[simp] theorem State.setPfReg_port : (s.setPfReg p i v).port = s.port := rfl
@[simp] theorem State.setPfReg_out : (s.setPfReg p i v).out = s.out := rfl

end

section

variable (s : State) (i : Fin 8) (v : Byte)

@[simp] theorem State.setMasterReg_cfg : (s.setMasterReg i v).cfg = s.cfg := rfl
@[simp] theorem State.setMasterReg_vram : (s.setMasterReg i v).vram = s.vram := rfl
@[simp] theorem State.setMasterReg_sprLive : (s.setMasterReg i v).sprLive = s.sprLive := rfl
@[simp] theorem State.setMasterReg_sprBuf : (s.setMasterReg i v).sprBuf = s.sprBuf := rfl
@[simp] theorem State.setMasterReg_pfctl : (s.setMasterReg i v).pfctl = s.pfctl := rfl
@[simp] theorem State.setMasterReg_mctl : (s.setMasterReg i v).mctl = s.mctl.set i v := rfl
@[simp] theorem State.setMasterReg_sprctl : (s.setMasterReg i v).sprctl = s.sprctl := rfl
@[simp] theorem State.setMasterReg_lc : (s.setMasterReg i v).lc = s.lc := rfl
@[simp] theorem State.setMasterReg_rasterIrqLine : (s.setMasterReg i v).rasterIrqLine = s.rasterIrqLine := rfl
@[simp] theorem State.setMasterReg_rs : (s.setMasterReg i v).rs = s.rs := rfl
@[simp] theorem State.setMasterReg_cache : (s.setMasterReg i v).cache = s.cache := rfl
@[simp] theorem State.setMasterReg_dirty : (s.setMasterReg i v).dirty = s.dirty := rfl
@[simp] theorem State.setMasterReg_scroll : (s.setMasterReg i v).scroll = s.scroll := rfl
@[simp] theorem State.setMasterReg_fb : (s.setMasterReg i v).fb = s.fb := rfl
@[simp] theorem State.setMasterReg_warnRasterCfg : (s.setMasterReg i v).warnRasterCfg = s.warnRasterCfg := rfl
@[simp] theorem State.setMasterReg_port : (s.setMasterReg i v).port = s.port := rfl
@[simp] theorem State.setMasterReg_out : (s.setMasterReg i v).out = s.out := rfl

end

section

variable (s : State) (i : Fin 9) (v : Byte)

@[simp] theorem State.setSpriteReg_cfg : (s.setSpriteReg i v).cfg = s.cfg := rfl
@[simp] theorem State.setSpriteReg_vram : (s.setSpriteReg i v).vram = s.vram := rfl
@[simp] theorem State.setSpriteReg_sprLive : (s.setSpriteReg i v).sprLive = s.sprLive := rfl
@[simp] theorem State.setSpriteReg_sprBuf : (s.setSpriteReg i v).sprBuf = s.sprBuf := rfl
@[simp] theorem State.setSpriteReg_pfctl : (s.setSpriteReg i v).pfctl = s.pfctl := rfl
@[simp] theorem State.setSpriteReg_mctl : (s.setSpriteReg i v).mctl = s.mctl := rfl
@[simp] theorem State.setSpriteReg_sprctl : (s.setSpriteReg i v).sprctl = s.sprctl.set i v := rfl
@[simp] theorem State.setSpriteReg_lc : (s.setSpriteReg i v).lc = s.lc := rfl
@[simp] theorem State.setSpriteReg_rasterIrqLine : (s.setSpriteReg i v).rasterIrqLine = s.rasterIrqLine := rfl
@[simp] theorem State.setSpriteReg_rs : (s.setSpriteReg i v).rs = s.rs := rfl
@[simp] theorem State.setSpriteReg_cache : (s.setSpriteReg i v).cache = s.cache := rfl
@[simp] theorem State.setSpriteReg_dirty : (s.setSpriteReg i v).dirty = s.dirty := rfl
@[simp] theorem State.setSpriteReg_scroll : (s.setSpriteReg i v).scroll = s.scroll := rfl
@[simp] theorem State.setSpriteReg_fb : (s.setSpriteReg i v).fb = s.fb := rfl
@[simp] theorem State.setSpriteReg_warnRasterCfg : (s.setSpriteReg i v).warnRasterCfg = s.warnRasterCfg := rfl
@[simp] theorem State.setSpriteReg_port : (s.setSpriteReg i v).port = s.port := rfl
@[simp] theorem State.setSpriteReg_out : (s.setSpriteReg i v).out = s.out := rfl

end

section

variable (s : State) (p : Playfield) (c : LayerControl)

@[simp] theorem State.setLayerCtl_cfg : (s.setLayerCtl p c).cfg = s.cfg := rfl
@[simp] theorem State.setLayerCtl_vram : (s.setLayerCtl p c).vram = s.vram := rfl
@[simp] theorem State.setLayerCtl_sprLive : (s.setLayerCtl p c).sprLive = s.sprLive := rfl
@[simp] theorem State.setLayerCtl_sprBuf : (s.setLayerCtl p c).sprBuf = s.sprBuf := rfl
@[simp] theorem State.setLayerCtl_pfctl : (s.setLayerCtl p c).pfctl = s.pfctl := rfl
@[simp] theorem State.setLayerCtl_mctl : (s.setLayerCtl p c).mctl = s.mctl := rfl
@[simp] theorem State.setLayerCtl_sprctl : (s.setLayerCtl p c).sprctl = s.sprctl := rfl
@[simp] theorem State.setLayerCtl_lc : (s.setLayerCtl p c).lc = s.lc.set p c := rfl
@[simp] theorem State.setLayerCtl_rasterIrqLine : (s.setLayerCtl p c).rasterIrqLine = s.rasterIrqLine := rfl
@[simp] theorem State.setLayerCtl_rs : (s.setLayerCtl p c).rs = s.rs := rfl
@[simp] theorem State.setLayerCtl_cache : (s.setLayerCtl p c).cache = s.cache := rfl
@[simp] theorem State.setLayerCtl_dirty : (s.setLayerCtl p c).dirty = s.dirty := rfl
@[simp] theorem State.setLayerCtl_scroll : (s.setLayerCtl p c).scroll = s.scroll := rfl
@[simp] theorem State.setLayerCtl_fb : (s.setLayerCtl p c).fb = s.fb := rfl
@[simp] theorem State.setLayerCtl_warnRasterCfg : (s.setLayerCtl p c).warnRasterCfg = s.warnRasterCfg := rfl
@[simp] theorem State.setLayerCtl_port : (s.setLayerCtl p c).port = s.port := rfl
@[simp] theorem State.setLayerCtl_out : (s.setLayerCtl p c).out = s.out := rfl

end

section

variable (s : State) (src : IrqSource)

@[simp] theorem State.raiseIrq_cfg : (s.raiseIrq src).cfg = s.cfg := rfl
@[simp] theorem State.raiseIrq_vram : (s.raiseIrq src).vram = s.vram := rfl
@[simp] theorem State.raiseIrq_sprLive : (s.raiseIrq src).sprLive = s.sprLive := rfl
@[simp] theorem State.raiseIrq_sprBuf : (s.raiseIrq src).sprBuf = s.sprBuf := rfl
@[simp] theorem State.raiseIrq_pfctl : (s.raiseIrq src).pfctl = s.pfctl := rfl
@[simp] theorem State.raiseIrq_mctl : (s.raiseIrq src).mctl = s.mctl := rfl
@[simp] theorem State.raiseIrq_sprctl : (s.raiseIrq src).sprctl = s.sprctl := rfl
@[simp] theorem State.raiseIrq_lc : (s.raiseIrq src).lc = s.lc := rfl
@[simp] theorem State.raiseIrq_rasterIrqLine : (s.raiseIrq src).rasterIrqLine = s.rasterIrqLine := rfl
@[simp] theorem State.raiseIrq_rs : (s.raiseIrq src).rs = s.rs := rfl
@[simp] theorem State.raiseIrq_cache : (s.raiseIrq src).cache = s.cache := rfl
@[simp] theorem State.raiseIrq_dirty : (s.raiseIrq src).dirty = s.dirty := rfl
@[simp] theorem State.raiseIrq_scroll : (s.raiseIrq src).scroll = s.scroll := rfl
@[simp] theorem State.raiseIrq_fb : (s.raiseIrq src).fb = s.fb := rfl
@[simp] theorem State.raiseIrq_warnRasterCfg : (s.raiseIrq src).warnRasterCfg = s.warnRasterCfg := rfl
@[simp] theorem State.raiseIrq_port : (s.raiseIrq src).port = s.port := rfl
@[simp] theorem State.raiseIrq_out : (s.raiseIrq src).out = ⟨s.out.irqs ++ [src], s.out.response, s.out.warn⟩ := rfl

end

section

variable (s : State) (v : Byte)

@[simp] theorem State.respond_cfg : (s.respond v).cfg = s.cfg := rfl
@[simp] theorem State.respond_vram : (s.respond v).vram = s.vram := rfl
@[simp] theorem State.respond_sprLive : (s.respond v).sprLive = s.sprLive := rfl
@[simp] theorem State.respond_sprBuf : (s.respond v).sprBuf = s.sprBuf := rfl
@[simp] theorem State.respond_pfctl : (s.respond v).pfctl = s.pfctl := rfl
@[simp] theorem State.respond_mctl : (s.respond v).mctl = s.mctl := rfl
@[simp] theorem State.respond_sprctl : (s.respond v).sprctl = s.sprctl := rfl
@[simp] theorem State.respond_lc : (s.respond v).lc = s.lc := rfl
@[simp] theorem State.respond_rasterIrqLine : (s.respond v).rasterIrqLine = s.rasterIrqLine := rfl
@[simp] theorem State.respond_rs : (s.respond v).rs = s.rs := rfl
@[simp] theorem State.respond_cache : (s.respond v).cache = s.cache := rfl
@[simp] theorem State.respond_dirty : (s.respond v).dirty = s.dirty := rfl
@[simp] theorem State.respond_scroll : (s.respond v).scroll = s.scroll := rfl
@[simp] theorem State.respond_fb : (s.respond v).fb = s.fb := rfl
@[simp] theorem State.respond_warnRasterCfg : (s.respond v).warnRasterCfg = s.warnRasterCfg := rfl
@[simp] theorem State.respond_port : (s.respond v).port = s.port := rfl
@[simp] theorem State.respond_out : (s.respond v).out = ⟨s.out.irqs, some v, s.out.warn⟩ := rfl

end

section

variable (s : State)

@[simp] theorem State.warn_cfg : (s.warn).cfg = s.cfg := rfl
@[simp] theorem State.warn_vram : (s.warn).vram = s.vram := rfl
@[simp] theorem State.warn_sprLive : (s.warn).sprLive = s.sprLive := rfl
@[simp] theorem State.warn_sprBuf : (s.warn).sprBuf = s.sprBuf := rfl
@[simp] theorem State.warn_pfctl : (s.warn).pfctl = s.pfctl := rfl
@[simp] theorem State.warn_mctl : (s.warn).mctl = s.mctl := rfl
@[simp] theorem State.warn_sprctl : (s.warn).sprctl = s.sprctl := rfl
@[simp] theorem State.warn_lc : (s.warn).lc = s.lc := rfl
@[simp] theorem State.warn_rasterIrqLine : (s.warn).rasterIrqLine = s.rasterIrqLine := rfl
@[simp] theorem State.warn_rs : (s.warn).rs = s.rs := rfl
@[simp] theorem State.warn_cache : (s.warn).cache = s.cache := rfl
@[simp] theorem State.warn_dirty : (s.warn).dirty = s.dirty := rfl
@[simp] theorem State.warn_scroll : (s.warn).scroll = s.scroll := rfl
@[simp] theorem State.warn_fb : (s.warn).fb = s.fb := rfl
@[simp] theorem State.warn_warnRasterCfg : (s.warn).warnRasterCfg = true := rfl
@[simp] theorem State.warn_port : (s.warn).port = s.port := rfl
@[simp] theorem State.warn_out : (s.warn).out = ⟨s.out.irqs, s.out.response, true⟩ := rfl

end

section

variable (s : State) (L : Layer) (t : Nat)

@[simp] theorem State.markTile_cfg : (s.markTile L t).cfg = s.cfg := rfl
@[simp] theorem State.markTile_vram : (s.markTile L t).vram = s.vram := rfl
@[simp] theorem State.markTile_sprLive : (s.markTile L t).sprLive = s.sprLive := rfl
@[simp] theorem State.markTile_sprBuf : (s.markTile L t).sprBuf = s.sprBuf := rfl
@[simp] theorem State.markTile_pfctl : (s.markTile L t).pfctl = s.pfctl := rfl
@[simp] theorem State.markTile_mctl : (s.markTile L t).mctl = s.mctl := rfl
@[simp] theorem State.markTile_sprctl : (s.markTile L t).sprctl = s.sprctl := rfl
@[simp] theorem State.markTile_lc : (s.markTile L t).lc = s.lc := rfl
@[simp] theorem State.markTile_rasterIrqLine : (s.markTile L t).rasterIrqLine = s.rasterIrqLine := rfl
@[simp] theorem State.markTile_rs : (s.markTile L t).rs = s.rs := rfl
@[simp] theorem State.markTile_cache : (s.markTile L t).cache = s.cache := rfl
@[simp] theorem State.markTile_dirty : (s.markTile L t).dirty = s.dirty.mark L t := rfl
@[simp] theorem State.markTile_scroll : (s.markTile L t).scroll = s.scroll := rfl
@[simp] theorem State.markTile_fb : (s.markTile L t).fb = s.fb := rfl
@[simp] theorem State.markTile_warnRasterCfg : (s.markTile L t).warnRasterCfg = s.warnRasterCfg := rfl
@[simp] theorem State.markTile_port : (s.markTile L t).port = s.port := rfl
@[simp] theorem State.markTile_out : (s.markTile L t).out = s.out := rfl

end

section

variable (s : State) (L : Layer)

@[simp] theorem State.markLayer_cfg : (s.markLayer L).cfg = s.cfg := rfl
@[simp] theorem State.markLayer_vram : (s.markLayer L).vram = s.vram := rfl
@[simp] theorem State.markLayer_sprLive : (s.markLayer L).sprLive = s.sprLive := rfl
@[simp] theorem State.markLayer_sprBuf : (s.markLayer L).sprBuf = s.sprBuf := rfl
@[simp] theorem State.markLayer_pfctl : (s.markLayer L).pfctl = s.pfctl := rfl
@[simp] theorem State.markLayer_mctl : (s.markLayer L).mctl = s.mctl := rfl
@[simp] theorem State.markLayer_sprctl : (s.markLayer L).sprctl = s.sprctl := rfl
@[simp] theorem State.markLayer_lc : (s.markLayer L).lc = s.lc := rfl
@[simp] theorem State.markLayer_rasterIrqLine : (s.markLayer L).rasterIrqLine = s.rasterIrqLine := rfl
@[simp] theorem State.markLayer_rs : (s.markLayer L).rs = s.rs := rfl
@[simp] theorem State.markLayer_cache : (s.markLayer L).cache = s.cache := rfl
@[simp] theorem State.markLayer_dirty : (s.markLayer L).dirty = s.dirty.markAll L := rfl
@[simp] theorem State.markLayer_scroll : (s.markLayer L).scroll = s.scroll := rfl
@[simp] theorem State.markLayer_fb : (s.markLayer L).fb = s.fb := rfl
@[simp] theorem State.markLayer_warnRasterCfg : (s.markLayer L).warnRasterCfg = s.warnRasterCfg := rfl
@[simp] theorem State.markLayer_port : (s.markLayer L).port = s.port := rfl
@[simp] theorem State.markLayer_out : (s.markLayer L).out = s.out := rfl

end

section

variable (s : State) (rest : List PortEvent)

@[simp] theorem State.beginCommand_cfg : (s.beginCommand rest).cfg = s.cfg := rfl
@[simp] theorem State.beginCommand_vram : (s.beginCommand rest).vram = s.vram := rfl
@[simp] theorem State.beginCommand_sprLive : (s.beginCommand rest).sprLive = s.sprLive := rfl
@[simp] theorem State.beginCommand_sprBuf : (s.beginCommand rest).sprBuf = s.sprBuf := rfl
@[simp] theorem State.beginCommand_pfctl : (s.beginCommand rest).pfctl = s.pfctl := rfl
@[simp] theorem State.beginCommand_mctl : (s.beginCommand rest).mctl = s.mctl := rfl
@[simp] theorem State.beginCommand_sprctl : (s.beginCommand rest).sprctl = s.sprctl := rfl
@[simp] theorem State.beginCommand_lc : (s.beginCommand rest).lc = s.lc := rfl
@[simp] theorem State.beginCommand_rasterIrqLine : (s.beginCommand rest).rasterIrqLine = s.rasterIrqLine := rfl
@[simp] theorem State.beginCommand_rs : (s.beginCommand rest).rs = s.rs := rfl
@[simp] theorem State.beginCommand_cache : (s.beginCommand rest).cache = s.cache := rfl
@[simp] theorem State.beginCommand_dirty : (s.beginCommand rest).dirty = s.dirty := rfl
@[simp] theorem State.beginCommand_scroll : (s.beginCommand rest).scroll = s.scroll := rfl
@[simp] theorem State.beginCommand_fb : (s.beginCommand rest).fb = s.fb := rfl
@[simp] theorem State.beginCommand_warnRasterCfg : (s.beginCommand rest).warnRasterCfg = s.warnRasterCfg := rfl
@[simp] theorem State.beginCommand_port : (s.beginCommand rest).port = rest := rfl
@[simp] theorem State.beginCommand_out : (s.beginCommand rest).out = Output.none := rfl

end

section

variable (s : State) (w : CmdWord)

@[simp] theorem State.present_cfg : (s.present w).cfg = s.cfg := rfl
@[simp] theorem State.present_vram : (s.present w).vram = s.vram := rfl
@[simp] theorem State.present_sprLive : (s.present w).sprLive = s.sprLive := rfl
@[simp] theorem State.present_sprBuf : (s.present w).sprBuf = s.sprBuf := rfl
@[simp] theorem State.present_pfctl : (s.present w).pfctl = s.pfctl := rfl
@[simp] theorem State.present_mctl : (s.present w).mctl = s.mctl := rfl
@[simp] theorem State.present_sprctl : (s.present w).sprctl = s.sprctl := rfl
@[simp] theorem State.present_lc : (s.present w).lc = s.lc := rfl
@[simp] theorem State.present_rasterIrqLine : (s.present w).rasterIrqLine = s.rasterIrqLine := rfl
@[simp] theorem State.present_rs : (s.present w).rs = s.rs := rfl
@[simp] theorem State.present_cache : (s.present w).cache = s.cache := rfl
@[simp] theorem State.present_dirty : (s.present w).dirty = s.dirty := rfl
@[simp] theorem State.present_scroll : (s.present w).scroll = s.scroll := rfl
@[simp] theorem State.present_fb : (s.present w).fb = s.fb := rfl
@[simp] theorem State.present_warnRasterCfg : (s.present w).warnRasterCfg = s.warnRasterCfg := rfl
@[simp] theorem State.present_port : (s.present w).port = .command w :: s.port := rfl
@[simp] theorem State.present_out : (s.present w).out = s.out := rfl

end

/-! ## One value per playfield or layer -/

@[simp] theorem PerPf.get_set {α : Type} (t : PerPf α) (p q : Playfield) (v : α) :
    (t.set p v).get q = if q = p then v else t.get q := by cases p <;> cases q <;> rfl

@[simp] theorem PerPf.get_const {α : Type} (v : α) (p : Playfield) : (PerPf.const v).get p = v := by cases p <;> rfl

theorem PerPf.ext_get {α : Type} {t u : PerPf α} (h : ∀ p, t.get p = u.get p) : t = u := by
  cases t; cases u
  have h1 := h .pf1; have h2 := h .pf2; have h3 := h .pf3
  simp only [PerPf.get] at h1 h2 h3
  simp [h1, h2, h3]

@[simp] theorem PerLayer.get_set {α : Type} (t : PerLayer α) (L M : Layer) (v : α) :
    (t.set L v).get M = if M = L then v else t.get M := by cases L <;> cases M <;> rfl

@[simp] theorem PerLayer.get_const {α : Type} (v : α) (L : Layer) : (PerLayer.const v).get L = v := by
  cases L <;> rfl

/-! ## Registers read back -/

theorem vector_set_get {n : Nat} (r : Vector Byte n) (i j : Fin n) (v : Byte) :
    (r.set i v)[j] = if j = i then v else r[j] := by
  simp only [Fin.getElem_fin, Vector.getElem_set, Fin.ext_iff]
  split <;> rename_i h
  · rw [if_pos h.symm]
  · rw [if_neg fun e => h e.symm]

theorem State.pfReg_setPfReg (s : State) (p q : Playfield) (i j : Fin 8) (v : Byte) :
    (s.setPfReg p i v).pfReg q j = if q = p ∧ j = i then v else s.pfReg q j := by
  by_cases hq : q = p
  · subst hq
    simp only [State.pfReg, State.setPfReg_pfctl, PerPf.get_set, if_true, true_and]
    exact vector_set_get ..
  · simp [State.pfReg, hq]

theorem State.masterReg_setMasterReg (s : State) (i j : Fin 8) (v : Byte) :
    (s.setMasterReg i v).masterReg j = if j = i then v else s.masterReg j := vector_set_get ..

theorem State.spriteReg_setSpriteReg (s : State) (i j : Fin 9) (v : Byte) :
    (s.setSpriteReg i v).spriteReg j = if j = i then v else s.spriteReg j := vector_set_get ..

theorem State.layerCtl_setLayerCtl (s : State) (p q : Playfield) (c : LayerControl) :
    (s.setLayerCtl p c).layerCtl q = if q = p then c else s.layerCtl q := by
  simp [State.layerCtl]

/-! ## Memories read back -/

/-- `20_memory.md` R73: a read returns the value of the latest write. -/
theorem State.vramByte_setVramByte {s : State} (h : Memory.wf vramSize s.vram = true) (a b : Half) (v : Byte) :
    (s.setVramByte a v).vramByte b = if b = a then v else s.vramByte b := by
  simp [State.vramByte, Memory.read_write h, BitVec.toNat_inj]

theorem State.sprLiveByte_setSprLiveByte {s : State} (h : Memory.wf sprSize s.sprLive = true) (a b : Nat) (v : Byte) :
    (s.setSprLiveByte a v).sprLiveByte b = if b = a then v else s.sprLiveByte b := by
  simp [State.sprLiveByte, Memory.read_write h]

end Sys2Proof.Machine
end

