-- ==== Sys2Proof/Laws/Dirty.lean ====
section
/-! SUPPORT. What a dirty bit reads after each marking, and what the marking operations leave alone. -/

namespace Sys2Proof.Machine

theorem getLsbD_setBit {n : Nat} (x : BitVec n) (t k : Nat) :
    (setBit x t).getLsbD k = (x.getLsbD k || (decide (k = t) && decide (k < n))) := by
  have h : (1#n <<< t).getLsbD k = (decide (k = t) && decide (k < n)) := by
    rw [BitVec.getLsbD_shiftLeft, BitVec.getLsbD_one, Bool.eq_iff_iff]
    simp only [Bool.and_eq_true, Bool.not_eq_true', decide_eq_true_eq, decide_eq_false_iff_not]
    omega
  rw [setBit, BitVec.getLsbD_or, h]

theorem getLsbD_allBits (n k : Nat) : (allBits n).getLsbD k = decide (k < n) := BitVec.getLsbD_allOnes

/-- One tile is marked; every other dirty bit keeps its value. -/
theorem DirtyBits.get_mark (d : DirtyBits) (L M : Layer) (t k : Nat) :
    (d.mark L t).get M k = (d.get M k || (decide (M = L) && decide (k = t) && decide (k < L.tiles))) := by
  cases L <;> cases M <;>
    simp [DirtyBits.mark, DirtyBits.get, getLsbD_setBit, Layer.tiles, Layer.isWide]

/-- Every tile of the layer is marked; every other dirty bit keeps its value. -/
theorem DirtyBits.get_markAll (d : DirtyBits) (L M : Layer) (k : Nat) :
    (d.markAll L).get M k = if M = L then decide (k < L.tiles) else d.get M k := by
  cases L <;> cases M <;> simp [DirtyBits.markAll, DirtyBits.get, getLsbD_allBits, Layer.tiles, Layer.isWide]

/-- Every bit of the layer is cleared; every other dirty bit keeps its value. -/
theorem DirtyBits.get_clear (d : DirtyBits) (L M : Layer) (k : Nat) :
    (d.clear L).get M k = if M = L then false else d.get M k := by
  cases L <;> cases M <;> simp [DirtyBits.clear, DirtyBits.get]

/-- A tile the layer does not have is never dirty. -/
theorem DirtyBits.get_outside (d : DirtyBits) (L : Layer) {k : Nat} (h : L.tiles ≤ k) : d.get L k = false := by
  cases L <;> simp [Layer.tiles, Layer.isWide] at h <;> exact BitVec.getLsbD_of_ge _ _ h

/-- After reset every tile is dirty (`10_state.md` R42). -/
theorem DirtyBits.get_all (L : Layer) (k : Nat) : DirtyBits.all.get L k = decide (k < L.tiles) := by
  cases L <;> simp [DirtyBits.all, DirtyBits.get, getLsbD_allBits, Layer.tiles, Layer.isWide]

@[simp] theorem State.isDirty_markTile (s : State) (L M : Layer) (t k : Nat) :
    (s.markTile L t).isDirty M k = (s.isDirty M k || (decide (M = L) && decide (k = t) && decide (k < L.tiles))) :=
  DirtyBits.get_mark ..

@[simp] theorem State.isDirty_markLayer (s : State) (L M : Layer) (k : Nat) :
    (s.markLayer L).isDirty M k = if M = L then decide (k < L.tiles) else s.isDirty M k := DirtyBits.get_markAll ..

/-- Marking for one playfield writes dirty bits and nothing else. -/
theorem markPlayfield_frame (offset : Half) (p : Playfield) (s : State) :
    markPlayfield offset p s = { s with dirty := (markPlayfield offset p s).dirty } := by
  unfold markPlayfield
  split
  · rfl
  · split
    · cases p <;> rfl
    · rfl

@[simp] theorem markPlayfield_cfg (offset : Half) (p : Playfield) (s : State) :
    (markPlayfield offset p s).cfg = s.cfg := by rw [markPlayfield_frame]

@[simp] theorem markPlayfield_layerCtl (offset : Half) (p q : Playfield) (s : State) :
    (markPlayfield offset p s).layerCtl q = s.layerCtl q := by rw [markPlayfield_frame]; rfl

/-- `MARK_DIRTY` writes dirty bits and nothing else (`41_vram_access.md` R137). -/
theorem markDirty_frame (offset : Half) (s : State) :
    markDirty offset s = { s with dirty := (markDirty offset s).dirty } := by
  unfold markDirty
  rw [markPlayfield_frame offset .pf3, markPlayfield_frame offset .pf2, markPlayfield_frame offset .pf1]

/-- `MarkAllDirty` writes dirty bits and nothing else (`43_master_control.md` R165). -/
theorem markAllDirty_frame (p : Playfield) (s : State) :
    markAllDirty p s = { s with dirty := (markAllDirty p s).dirty } := by
  unfold markAllDirty
  cases p.wide <;> rfl

/-- What `MarkAllDirty` does to a dirty bit: set on the playfield's narrow and wide layers, kept elsewhere. -/
theorem isDirty_markAllDirty (p : Playfield) (s : State) (L : Layer) (k : Nat) :
    (markAllDirty p s).isDirty L k =
      if L = p.narrow ∨ p.wide = some L then decide (k < L.tiles) else s.isDirty L k := by
  cases p <;> cases L <;> simp [markAllDirty, Playfield.narrow, Playfield.wide, Layer.tiles, Layer.isWide]

/-- What marking for one playfield does to a dirty bit. -/
theorem isDirty_markPlayfield (offset : Half) (p : Playfield) (s : State) (L : Layer) (k : Nat) :
    (markPlayfield offset p s).isDirty L k =
      (s.isDirty L k ||
        (if s.cfg.speedup && p == .pf1 && bankOf offset == 0xC000 then
          decide (L = .pf1h) && decide (k = narrowIndex offset) && decide (k < 4096)
        else bankMatches (s.layerCtl p).ptr (bankOf offset) &&
          ((decide (L = p.narrow) && decide (k = narrowIndex offset) && decide (k < 4096)) ||
            (decide (p.wide = some L) && decide (k = wideIndex offset) && decide (k < 8192))))) := by
  unfold markPlayfield
  split
  · rw [State.isDirty_markTile]; rfl
  · split
    · rename_i h
      rw [h]
      cases p <;> cases L <;>
        simp [Playfield.narrow, Playfield.wide, Layer.tiles, Layer.isWide]
    · rename_i h
      simp [h]

end Sys2Proof.Machine
end

