-- ==== Sys2Proof/Laws/Paint.lean ====
section
/-! SUPPORT. The framebuffer seen pixel by pixel: what a paint of a rectangle, a blit and a list of blits do to each
pixel, and that they keep the canonical form. A rectangle is `narrow` when its columns lie in the 512 of a row. -/

namespace Sys2Proof.Machine

/-- The columns of the rectangle lie in 0 to 511. -/
def Clip.Narrow (c : Clip) : Prop := c.colHi ≤ 512

theorem fbKey_mod {y x : Nat} (hx : x < 512) : fbKey y x % 512 = x := by unfold fbKey; omega

theorem fbKey_div {y x : Nat} (hx : x < 512) : fbKey y x / 512 = y := by unfold fbKey; omega

theorem Clip.contains_iff (c : Clip) (x y : Nat) :
    c.contains x y = true ↔ (c.rowLo ≤ y ∧ y < c.rowHi) ∧ c.colLo ≤ x ∧ x < c.colHi := by
  simp [Clip.contains, and_assoc]

theorem Clip.mem_keys (c : Clip) (k : Nat) :
    k ∈ c.keys ↔ ∃ y x, c.contains x y = true ∧ k = fbKey y x := by
  simp only [Clip.keys, List.mem_flatMap, List.mem_map, List.mem_range'_1, Clip.contains_iff]
  constructor
  · rintro ⟨y, hy, x, hx, rfl⟩; exact ⟨y, x, by omega, rfl⟩
  · rintro ⟨y, x, h, rfl⟩; exact ⟨y, by omega, x, by omega, rfl⟩

theorem Clip.fbKey_mem_keys {c : Clip} (hc : c.Narrow) {y x : Nat} (hx : x < 512) :
    fbKey y x ∈ c.keys ↔ c.contains x y = true := by
  rw [Clip.mem_keys]
  constructor
  · rintro ⟨y', x', h, hk⟩
    have h' := (Clip.contains_iff c x' y').mp h
    unfold Clip.Narrow at hc
    have : y = y' ∧ x = x' := by unfold fbKey at hk; omega
    rw [this.1, this.2]; exact h
  · exact fun h => ⟨y, x, h, rfl⟩

theorem Clip.keys_rising {c : Clip} (hc : c.Narrow) : c.keys.Pairwise (· < ·) := by
  unfold Clip.Narrow at hc
  rw [Clip.keys, List.pairwise_flatMap]
  constructor
  · intro y _
    rw [List.pairwise_map]
    exact (List.pairwise_lt_range' (step := 1)).imp fun h => by unfold fbKey; omega
  · refine (List.pairwise_lt_range' (step := 1)).imp fun {y z} hyz => ?_
    intro a ha b hb
    simp only [List.mem_map, List.mem_range'_1] at ha hb
    obtain ⟨x, hx, rfl⟩ := ha
    obtain ⟨x', hx', rfl⟩ := hb
    unfold fbKey; omega

/-- What a paint does to each pixel. -/
theorem fbPixel_paint {c : Clip} (hc : c.Narrow) {fb : Cells Pixel} (hfb : Cells.Rising fb)
    (f : Nat → Nat → Option Pixel) {y x : Nat} (hx : x < 512) :
    fbPixel (paint c f fb) y x =
      if c.contains x y then (f x y).getD (fbPixel fb y x) else fbPixel fb y x := by
  unfold fbPixel paint
  rw [Cells.get_update (Clip.keys_rising hc) hfb, fbKey_mod hx, fbKey_div hx]
  simp only [Clip.fbKey_mem_keys hc hx]

/-- A paint keeps the canonical form. -/
theorem fbWf_paint {c : Clip} (hc : c.Narrow) (hr : c.rowHi ≤ 512) {fb : Cells Pixel} (hfb : fbWf fb = true)
    (f : Nat → Nat → Option Pixel) : fbWf (paint c f fb) = true := by
  refine Cells.wf_update (Clip.keys_rising hc) (fun k hk => ?_) hfb
  obtain ⟨y, x, h, rfl⟩ := (Clip.mem_keys c k).mp hk
  have h' := (Clip.contains_iff c x y).mp h
  unfold Clip.Narrow at hc
  unfold fbKey; omega

theorem fbWf_rising {fb : Cells Pixel} (h : fbWf fb = true) : Cells.Rising fb := ((Cells.wf_iff _ _ _).mp h).1

theorem Clip.narrow_inter {c e : Clip} (hc : c.Narrow) : (c.inter e).Narrow := by
  unfold Clip.Narrow Clip.inter at *; simp only; omega

theorem Clip.contains_inter (c e : Clip) (x y : Nat) :
    (c.inter e).contains x y = (c.contains x y && e.contains x y) := by
  rw [Bool.eq_iff_iff, Bool.and_eq_true]
  simp only [Clip.contains_iff, Clip.inter]
  omega

/-- A blit writes only inside its cell. -/
theorem area_of_blitPixel {c : Cfg} {b : Blit} {x y : Nat} {p : Pixel} (h : blitPixel c b x y = some p) :
    b.area.contains x y = true := by
  unfold blitPixel at h
  simp only at h
  split at h
  · rename_i hin
    simp only [Bool.and_eq_true, decide_eq_true_eq] at hin
    rw [Clip.contains_iff]
    simp only [Blit.area]
    omega
  · cases h

/-- What `BLIT_CELL` does to each pixel. -/
theorem fbPixel_blitCell {c : Cfg} {clip : Clip} (hc : clip.Narrow) {fb : Cells Pixel} (hfb : Cells.Rising fb)
    (b : Blit) {y x : Nat} (hx : x < 512) :
    fbPixel (blitCell c clip fb b) y x =
      if clip.contains x y then (blitPixel c b x y).getD (fbPixel fb y x) else fbPixel fb y x := by
  rw [blitCell, fbPixel_paint (Clip.narrow_inter hc) hfb _ hx, Clip.contains_inter]
  by_cases h : clip.contains x y = true
  · by_cases ha : b.area.contains x y = true
    · simp [h, ha]
    · have : blitPixel c b x y = none := by
        cases hb : blitPixel c b x y with
        | none => rfl
        | some p => exact absurd (area_of_blitPixel hb) ha
      simp [h, ha, this]
  · simp [h]

theorem fbWf_blitCell {c : Cfg} {clip : Clip} (hc : clip.Narrow) (hr : clip.rowHi ≤ 512) {fb : Cells Pixel}
    (hfb : fbWf fb = true) (b : Blit) : fbWf (blitCell c clip fb b) = true :=
  fbWf_paint (Clip.narrow_inter hc) (by unfold Clip.inter; simp only; omega) hfb _

theorem fbWf_foldl_blitCell {c : Cfg} {clip : Clip} (hc : clip.Narrow) (hr : clip.rowHi ≤ 512) (bs : List Blit)
    {fb : Cells Pixel} (hfb : fbWf fb = true) : fbWf (bs.foldl (blitCell c clip) fb) = true := by
  induction bs generalizing fb with
  | nil => exact hfb
  | cons b bs ih => exact ih (fbWf_blitCell hc hr hfb b)

/-- What a list of blits does to each pixel: the last one that writes it wins. -/
theorem fbPixel_foldl_blitCell {c : Cfg} {clip : Clip} (hc : clip.Narrow) (hr : clip.rowHi ≤ 512) (bs : List Blit)
    {fb : Cells Pixel} (hfb : fbWf fb = true) {y x : Nat} (hx : x < 512) :
    fbPixel (bs.foldl (blitCell c clip) fb) y x =
      if clip.contains x y then (bs.reverse.findSome? fun b => blitPixel c b x y).getD (fbPixel fb y x)
      else fbPixel fb y x := by
  induction bs generalizing fb with
  | nil => simp
  | cons b bs ih =>
    rw [List.foldl_cons, ih (fbWf_blitCell hc hr hfb b), fbPixel_blitCell hc (fbWf_rising hfb) b hx]
    by_cases h : clip.contains x y = true
    · simp only [h, if_true, List.reverse_cons, List.findSome?_append]
      cases bs.reverse.findSome? fun b => blitPixel c b x y with
      | some p => simp
      | none => cases hb : blitPixel c b x y <;> simp [hb]
    · simp [h]

end Sys2Proof.Machine
end

