-- ==== Sys2Proof/Laws/Refresh.lean ====
section
/-! SUPPORT. What the micro-operations of a refresh can do: which components they write, what the scroll state, a cache
entry and a dirty bit are after them, what each pass does to a pixel, and that the canonical forms are kept. -/

namespace Sys2Proof.Machine

/-! ## The layers that exist -/

theorem existingLayers_nodup (c : Cfg) : (existingLayers c).Nodup := by
  unfold existingLayers
  cases c.speedup <;> decide

theorem mem_existingLayers (c : Cfg) (L : Layer) : L ∈ existingLayers c ↔ L ≠ .pf1h ∨ c.speedup = true := by
  unfold existingLayers
  cases c.speedup <;> cases L <;> simp

/-! ## RESOLVE_SCROLL -/

/-- `RESOLVE_SCROLL` of one layer writes that layer's resolved scroll and nothing else. -/
theorem resolveLayer_frame (s : State) (L : Layer) : resolveLayer s L = { s with scroll := (resolveLayer s L).scroll } :=
  rfl

theorem resolveLayer_other (s : State) {L M : Layer} (h : M ≠ L) :
    (resolveLayer s L).scroll.get M = s.scroll.get M := by
  simp [resolveLayer, h]

/-- The resolved scroll of a layer, from the state before. -/
theorem resolveLayer_scroll (s : State) (L : Layer) :
    (resolveLayer s L).scroll.get L =
      if (s.layerCtl L.playfield).rowscroll then
        { rows := .all512
          x := Cells.update (0 : Half) (fun r _ => resolveX L (s.rowEntry L.playfield r)) (List.range 512)
            (s.scroll.get L).x
          y := s.scrollY L.playfield }
      else
        { rows := .one
          x := Cells.set (0 : Half) (s.scroll.get L).x 0 (resolveX L (s.scrollX L.playfield))
          y := s.scrollY L.playfield } := by
  simp [resolveLayer]

/-- Resolving a list of layers reads nothing that resolving another layer writes. -/
theorem foldl_resolveLayer (ls : List Layer) (hls : ls.Nodup) (s : State) :
    ls.foldl resolveLayer s = { s with scroll := (ls.foldl resolveLayer s).scroll } ∧
    ∀ L, (ls.foldl resolveLayer s).scroll.get L =
      if L ∈ ls then (resolveLayer s L).scroll.get L else s.scroll.get L := by
  induction ls generalizing s with
  | nil => exact ⟨rfl, fun L => by simp⟩
  | cons M ls ih =>
    obtain ⟨hM, hls⟩ := List.nodup_cons.mp hls
    obtain ⟨hf, hg⟩ := ih hls (resolveLayer s M)
    refine ⟨by rw [List.foldl_cons, hf, resolveLayer_frame], fun L => ?_⟩
    rw [List.foldl_cons, hg]
    by_cases hL : L = M
    · subst hL; simp [hM]
    · have hsame : (resolveLayer (resolveLayer s M) L).scroll.get L = (resolveLayer s L).scroll.get L := by
        rw [resolveLayer_scroll, resolveLayer_scroll, resolveLayer_other s hL]
        rfl
      simp [hL, resolveLayer_other s hL, hsame]

/-- `RESOLVE_SCROLL` writes the resolved scroll and nothing else (`45_partial_refresh.md` R195). -/
theorem resolveScroll_frame (s : State) : resolveScroll s = { s with scroll := (resolveScroll s).scroll } :=
  (foldl_resolveLayer _ (existingLayers_nodup s.cfg) s).1

/-- Every layer that exists is resolved from the state before; a layer that does not exist is kept. -/
theorem resolveScroll_get (s : State) (L : Layer) :
    (resolveScroll s).scroll.get L =
      if L ∈ existingLayers s.cfg then (resolveLayer s L).scroll.get L else s.scroll.get L :=
  (foldl_resolveLayer _ (existingLayers_nodup s.cfg) s).2 L

theorem scrollWf_resolveLayer {s : State} {L : Layer} (h : Cells.wf (0 : Half) 512 (s.scroll.get L).x = true) :
    Cells.wf (0 : Half) 512 ((resolveLayer s L).scroll.get L).x = true := by
  rw [resolveLayer_scroll]
  split
  · have hlt : ∀ k ∈ List.range 512, k < 512 := fun k hk => List.mem_range.mp hk
    dsimp only
    generalize List.range 512 = ks, (List.pairwise_lt_range : (List.range 512).Pairwise (· < ·)) = hks at hlt ⊢
    exact Cells.wf_update hks hlt h
  · dsimp only
    exact Cells.wf_set h (by omega) _

/-! ## CACHE_UPDATE -/

theorem dirtyTiles_rising (s : State) (L : Layer) : (s.dirtyTiles L).Pairwise (· < ·) :=
  List.Pairwise.filter _ List.pairwise_lt_range

theorem mem_dirtyTiles (s : State) (L : Layer) (k : Nat) :
    k ∈ s.dirtyTiles L ↔ k < L.tiles ∧ s.isDirty L k = true := by
  simp [State.dirtyTiles]

/-- `CACHE_UPDATE` of one layer writes the cache and the dirty bits and nothing else. -/
theorem cacheUpdateLayer_frame (s : State) (L : Layer) :
    cacheUpdateLayer s L = { s with cache := (cacheUpdateLayer s L).cache, dirty := (cacheUpdateLayer s L).dirty } :=
  rfl

theorem isDirty_cacheUpdateLayer (s : State) (L M : Layer) (k : Nat) :
    (cacheUpdateLayer s L).isDirty M k = if M = L then false else s.isDirty M k := DirtyBits.get_clear ..

theorem cacheUpdateLayer_other (s : State) {L M : Layer} (h : M ≠ L) :
    (cacheUpdateLayer s L).cache.get M = s.cache.get M := by
  simp [cacheUpdateLayer, h]

/-- A tile of the layer after its update: decoded anew if it was dirty, kept otherwise. -/
theorem cacheEntry_cacheUpdateLayer (s : State) (L : Layer) (k : Nat)
    (h : Cells.wf TileEntry.zero L.tiles (s.cache.get L) = true) :
    (cacheUpdateLayer s L).cacheEntry L k =
      if k < L.tiles ∧ s.isDirty L k = true then decodeTile s L.variant (s.tileAddr L k) else s.cacheEntry L k := by
  simp only [State.cacheEntry, cacheUpdateLayer, PerLayer.get_set, if_true]
  rw [Cells.get_update (dirtyTiles_rising s L) ((Cells.wf_iff _ _ _).mp h).1]
  simp only [mem_dirtyTiles]

theorem cacheWf_cacheUpdateLayer {s : State} {L : Layer} (h : Cells.wf TileEntry.zero L.tiles (s.cache.get L) = true) :
    Cells.wf TileEntry.zero L.tiles ((cacheUpdateLayer s L).cache.get L) = true := by
  simp only [cacheUpdateLayer, PerLayer.get_set, if_true]
  exact Cells.wf_update (dirtyTiles_rising s L) (fun k hk => ((mem_dirtyTiles s L k).mp hk).1) h

/-- Updating a list of layers reads nothing that updating another layer writes. -/
theorem foldl_cacheUpdateLayer (ls : List Layer) (hls : ls.Nodup) (s : State) :
    ls.foldl cacheUpdateLayer s =
      { s with cache := (ls.foldl cacheUpdateLayer s).cache, dirty := (ls.foldl cacheUpdateLayer s).dirty } ∧
    (∀ L, (ls.foldl cacheUpdateLayer s).cache.get L =
      if L ∈ ls then (cacheUpdateLayer s L).cache.get L else s.cache.get L) ∧
    ∀ L k, (ls.foldl cacheUpdateLayer s).isDirty L k = if L ∈ ls then false else s.isDirty L k := by
  induction ls generalizing s with
  | nil => exact ⟨rfl, fun L => by simp, fun L k => by simp⟩
  | cons M ls ih =>
    obtain ⟨hM, hls⟩ := List.nodup_cons.mp hls
    obtain ⟨hf, hc, hd⟩ := ih hls (cacheUpdateLayer s M)
    refine ⟨by rw [List.foldl_cons, hf, cacheUpdateLayer_frame], fun L => ?_, fun L k => ?_⟩
    · rw [List.foldl_cons, hc]
      by_cases hL : L = M
      · subst hL; simp [hM]
      · have htiles : (cacheUpdateLayer s M).dirtyTiles L = s.dirtyTiles L := by
          unfold State.dirtyTiles
          refine List.filter_congr fun k _ => ?_
          rw [isDirty_cacheUpdateLayer, if_neg hL]
        have hsame : (cacheUpdateLayer (cacheUpdateLayer s M) L).cache.get L = (cacheUpdateLayer s L).cache.get L := by
          have := cacheUpdateLayer_other s hL
          simp only [cacheUpdateLayer, PerLayer.get_set, if_true] at this htiles ⊢
          rw [htiles, if_neg hL]
          rfl
        simp [hL, cacheUpdateLayer_other s hL, hsame]
    · rw [List.foldl_cons, hd, isDirty_cacheUpdateLayer]
      by_cases hL : L = M <;> simp [hL]

/-- `CACHE_UPDATE` writes the caches and the dirty bits and nothing else (`40_tile_decode.md` R125). -/
theorem cacheUpdate_frame (s : State) :
    cacheUpdate s = { s with cache := (cacheUpdate s).cache, dirty := (cacheUpdate s).dirty } :=
  (foldl_cacheUpdateLayer _ (existingLayers_nodup s.cfg) s).1

/-- Every layer that exists is updated from the state before; a layer that does not exist is kept. -/
theorem cacheUpdate_get (s : State) (L : Layer) :
    (cacheUpdate s).cache.get L =
      if L ∈ existingLayers s.cfg then (cacheUpdateLayer s L).cache.get L else s.cache.get L :=
  (foldl_cacheUpdateLayer _ (existingLayers_nodup s.cfg) s).2.1 L

/-- After it no tile of a layer that exists is dirty. -/
theorem isDirty_cacheUpdate (s : State) (L : Layer) (k : Nat) :
    (cacheUpdate s).isDirty L k = if L ∈ existingLayers s.cfg then false else s.isDirty L k :=
  (foldl_cacheUpdateLayer _ (existingLayers_nodup s.cfg) s).2.2 L k

/-! ## The composite -/

/-- `Composite` writes the framebuffer and nothing else (`45_partial_refresh.md` R199). -/
theorem composite_frame (clip : Clip) (s : State) :
    composite clip s = { s with fb := compositeFb s clip s.fb } := rfl

/-- What a pass of a playfield does to each pixel. -/
theorem fbPixel_drawIfEnabled (s : State) {clip : Clip} (hc : clip.Narrow) (pass : Pass) (p : Playfield)
    {fb : Cells Pixel} (hfb : fbWf fb = true) {y x : Nat} (hx : x < 512) :
    fbPixel (drawIfEnabled s clip pass p fb) y x =
      if clip.contains x y && (s.layerCtl p).enabled then (layerPixel s p pass x y).getD (fbPixel fb y x)
      else fbPixel fb y x := by
  unfold drawIfEnabled layerDraw
  cases (s.layerCtl p).enabled
  · simp
  · simp [fbPixel_paint hc (fbWf_rising hfb) _ hx]

theorem fbWf_drawIfEnabled (s : State) {clip : Clip} (hc : clip.Narrow) (hr : clip.rowHi ≤ 512) (pass : Pass)
    (p : Playfield) {fb : Cells Pixel} (hfb : fbWf fb = true) : fbWf (drawIfEnabled s clip pass p fb) = true := by
  unfold drawIfEnabled layerDraw
  split
  · exact fbWf_paint hc hr hfb _
  · exact hfb

/-- What pass a does to each pixel. -/
theorem fbPixel_drawBottom (s : State) {clip : Clip} (hc : clip.Narrow) {fb : Cells Pixel} (hfb : fbWf fb = true)
    {y x : Nat} (hx : x < 512) :
    fbPixel (drawBottom s clip fb) y x =
      if clip.contains x y then
        (if (s.layerCtl .pf3).enabled then layerPixel s .pf3 .back x y else some Pixel.bg).getD (fbPixel fb y x)
      else fbPixel fb y x := by
  unfold drawBottom layerDraw
  cases (s.layerCtl .pf3).enabled <;> simp [fbPixel_paint hc (fbWf_rising hfb) _ hx]

theorem fbWf_drawBottom (s : State) {clip : Clip} (hc : clip.Narrow) (hr : clip.rowHi ≤ 512) {fb : Cells Pixel}
    (hfb : fbWf fb = true) : fbWf (drawBottom s clip fb) = true := by
  unfold drawBottom layerDraw
  split <;> exact fbWf_paint hc hr hfb _

/-- What a sprite pass does to each pixel: the last blit of the pass that writes it wins. -/
theorem fbPixel_drawSprites (s : State) {clip : Clip} (hc : clip.Narrow) (hr : clip.rowHi ≤ 512) (above : Bool)
    {fb : Cells Pixel} (hfb : fbWf fb = true) {y x : Nat} (hx : x < 512) :
    fbPixel (drawSprites s clip above fb) y x =
      if clip.contains x y then
        ((passBlits s above).reverse.findSome? fun b => blitPixel s.cfg b x y).getD (fbPixel fb y x)
      else fbPixel fb y x := fbPixel_foldl_blitCell hc hr _ hfb hx

theorem fbWf_drawSprites (s : State) {clip : Clip} (hc : clip.Narrow) (hr : clip.rowHi ≤ 512) (above : Bool)
    {fb : Cells Pixel} (hfb : fbWf fb = true) : fbWf (drawSprites s clip above fb) = true :=
  fbWf_foldl_blitCell hc hr _ hfb

/-- The composite keeps the canonical form of the framebuffer. -/
theorem fbWf_compositeFb (s : State) {clip : Clip} (hc : clip.Narrow) (hr : clip.rowHi ≤ 512) {fb : Cells Pixel}
    (hfb : fbWf fb = true) : fbWf (compositeFb s clip fb) = true := by
  unfold compositeFb
  exact fbWf_drawSprites s hc hr _ (fbWf_drawIfEnabled s hc hr _ _ (fbWf_drawIfEnabled s hc hr _ _
    (fbWf_drawIfEnabled s hc hr _ _ (fbWf_drawSprites s hc hr _ (fbWf_drawIfEnabled s hc hr _ _
      (fbWf_drawIfEnabled s hc hr _ _ (fbWf_drawBottom s hc hr hfb)))))))

/-! ## The clip rectangle -/

/-- Under a legal configuration the clip rectangle of a non-empty clipped band lies in the framebuffer. -/
theorem bandClip_narrow {c : Cfg} (hc : c.wf = true) (first last : Int) : (bandClip c first last).Narrow := by
  simp only [Cfg.wf, Bool.and_eq_true, decide_eq_true_eq] at hc
  unfold Clip.Narrow bandClip
  simp only; omega

theorem bandClip_rows {c : Cfg} (hc : c.wf = true) {last : Int} (first : Int) (hl : last ≤ c.visEnd) :
    (bandClip c first last).rowHi ≤ 512 := by
  simp only [Cfg.wf, Bool.and_eq_true, decide_eq_true_eq] at hc
  unfold bandClip
  simp only; omega

theorem bandClip_contains {c : Cfg} {first last : Int} (hf : (c.visTop : Int) ≤ first) (x y : Nat) :
    (bandClip c first last).contains x y = true ↔
      (first + 128 ≤ y ∧ (y : Int) < last + 128) ∧ c.visLeft ≤ x ∧ x ≤ c.visRight := by
  rw [Clip.contains_iff]
  unfold bandClip
  simp only; omega

end Sys2Proof.Machine
end

