-- ==== Sys2Proof/Laws/Commands.lean ====
section
/-! SUPPORT. What the shared operations of the commands can do: which components each writes and what they hold after it.
`t = { s with … }` is the frame: every component not named is as it was. -/

namespace Sys2Proof.Machine

/-! ## The sprite swap (`44_sprite_control.md` R180) -/

/-- The swap writes the two sprite copies and the output. -/
theorem spriteSwap_eq (clear : Bool) (s : State) :
    spriteSwap clear s = { s with
      sprBuf := s.sprLive
      sprLive := if clear then [] else s.sprLive
      out := { s.out with irqs := s.out.irqs ++ [.spriteBufferComplete] } } := by
  cases clear <;> rfl

/-! ## Layer select (`43_master_control.md` R163 to R165) -/

/-- A layer select writes the latched layer control and dirty bits. -/
theorem layerSelect_frame (p : Playfield) (value : Byte) (s : State) :
    layerSelect p value s =
      { s with lc := (layerSelect p value s).lc, dirty := (layerSelect p value s).dirty } := by
  unfold layerSelect
  simp only
  split
  · rw [markAllDirty_frame]; rfl
  · rfl

theorem layerCtl_layerSelect (p q : Playfield) (value : Byte) (s : State) :
    (layerSelect p value s).layerCtl q =
      if q = p then
        { ptr := bankPtr value
          wide := selectWide s.cfg p (s.layerCtl p).wide value
          enabled := selectEnabled value
          rowscroll := selectRowscroll value }
      else s.layerCtl q := by
  unfold layerSelect
  simp only
  split
  · rw [State.layerCtl_setLayerCtl, markAllDirty_frame]; rfl
  · rw [State.layerCtl_setLayerCtl]

theorem isDirty_layerSelect (p : Playfield) (value : Byte) (s : State) (L : Layer) (k : Nat) :
    (layerSelect p value s).isDirty L k =
      if bankPtr value ≠ (s.layerCtl p).ptr ∧ (L = p.narrow ∨ p.wide = some L) then decide (k < L.tiles)
      else s.isDirty L k := by
  by_cases h : bankPtr value = (s.layerCtl p).ptr
  · have : (bankPtr value != (s.layerCtl p).ptr) = false := by simp [h]
    rw [if_neg (by simp [h])]
    simp only [layerSelect, this]
    rfl
  · have : (bankPtr value != (s.layerCtl p).ptr) = true := by simpa using h
    simp only [layerSelect, this, if_true, ne_eq, h, not_false_eq_true, true_and]
    exact isDirty_markAllDirty p s L k

/-! ## The raster line (`43_master_control.md` R166, R167) -/

/-- The latch writes the line, the sticky warning and the warning pulse. -/
theorem updateRasterLine_eq (s : State) :
    updateRasterLine s = { s with
      rasterIrqLine := rasterLine (s.masterReg 7) (s.masterReg 6)
      warnRasterCfg := rasterMismatch s.cfg (rasterLine (s.masterReg 7) (s.masterReg 6)) || s.warnRasterCfg
      out := { s.out with warn := rasterMismatch s.cfg (rasterLine (s.masterReg 7) (s.masterReg 6)) || s.out.warn } } := by
  unfold updateRasterLine
  simp only
  split
  · rename_i h; rw [h]; rfl
  · rename_i h; simp only [Bool.not_eq_true] at h; rw [h]; rfl

/-! ## The refresh (`45_partial_refresh.md` R190) -/

/-- A non-empty refresh: the scroll resolved, the caches brought up to date, the band drawn, the line recorded. -/
theorem refreshBand_eq (first last endLine : Int) (s : State) :
    refreshBand first last endLine s = { s with
      scroll := (resolveScroll s).scroll
      cache := (cacheUpdate (resolveScroll s)).cache
      dirty := (cacheUpdate (resolveScroll s)).dirty
      fb := compositeFb (cacheUpdate (resolveScroll s)) (bandClip s.cfg first last) s.fb
      rs := { s.rs with lastRedrawnLine := BitVec.ofInt 16 (min endLine s.cfg.visEnd) } } := by
  have h : cacheUpdate (resolveScroll s) = { s with
      scroll := (resolveScroll s).scroll
      cache := (cacheUpdate (resolveScroll s)).cache
      dirty := (cacheUpdate (resolveScroll s)).dirty } := by
    rw [cacheUpdate_frame, resolveScroll_frame]
  unfold refreshBand
  simp only [composite]
  rw [h]

/-- The band is empty or it is drawn. -/
theorem partialRefresh_cases (startLine endLine : Int) (s : State) :
    (min endLine s.cfg.visEnd ≤ max startLine s.cfg.visTop ∧ partialRefresh startLine endLine s = s) ∨
    (max startLine s.cfg.visTop < min endLine s.cfg.visEnd ∧
      partialRefresh startLine endLine s =
        refreshBand (max startLine s.cfg.visTop) (min endLine s.cfg.visEnd) endLine s) := by
  unfold partialRefresh clipBand
  simp only
  split
  · exact .inl ⟨‹_›, rfl⟩
  · exact .inr ⟨by omega, rfl⟩

theorem visitedFrom_rs (s : State) (r : RasterState) (n : Nat) : visitedFrom { s with rs := r } n = visitedFrom s n := by
  induction n with
  | zero => rfl
  | succ n ih => rw [visitedFrom, visitedFrom, ih]; rfl

theorem passBlits_rs (s : State) (r : RasterState) (above : Bool) :
    passBlits { s with rs := r } above = passBlits s above := by
  have h : visitedRecords { s with rs := r } = visitedRecords s := visitedFrom_rs s r (recordCount s)
  unfold passBlits
  rw [h]

theorem layerPixel_rs (s : State) (r : RasterState) (p : Playfield) (pass : Pass) :
    layerPixel { s with rs := r } p pass = layerPixel s p pass := rfl

/-- The composite does not read `rs`. -/
theorem compositeFb_rs (s : State) (r : RasterState) (clip : Clip) (fb : Cells Pixel) :
    compositeFb { s with rs := r } clip fb = compositeFb s clip fb := by
  have hs : ∀ above fb, drawSprites { s with rs := r } clip above fb = drawSprites s clip above fb := by
    intro above fb
    unfold drawSprites
    rw [passBlits_rs]
  have hb : ∀ fb, drawBottom { s with rs := r } clip fb = drawBottom s clip fb := by
    intro fb
    unfold drawBottom layerDraw
    rw [layerPixel_rs]
    rfl
  have he : ∀ pass p fb, drawIfEnabled { s with rs := r } clip pass p fb = drawIfEnabled s clip pass p fb := by
    intro pass p fb
    unfold drawIfEnabled layerDraw
    rw [layerPixel_rs]
    rfl
  simp only [compositeFb, hs, hb, he]

/-- A refresh does not read `rs`: it draws the same whatever `rs` is. -/
theorem refreshBand_rs (first last endLine : Int) (s : State) (r : RasterState) :
    refreshBand first last endLine { s with rs := r } =
      { refreshBand first last endLine s with
        rs := { r with lastRedrawnLine := BitVec.ofInt 16 (min endLine s.cfg.visEnd) } } := by
  have h1 : ∀ (ls : List Layer) (s : State),
      ls.foldl resolveLayer { s with rs := r } = { ls.foldl resolveLayer s with rs := r } := by
    intro ls
    induction ls with
    | nil => intro s; rfl
    | cons L ls ih => intro s; exact ih (resolveLayer s L)
  have h2 : ∀ (ls : List Layer) (s : State),
      ls.foldl cacheUpdateLayer { s with rs := r } = { ls.foldl cacheUpdateLayer s with rs := r } := by
    intro ls
    induction ls with
    | nil => intro s; rfl
    | cons L ls ih => intro s; exact ih (cacheUpdateLayer s L)
  have h3 : cacheUpdate (resolveScroll { s with rs := r }) = { cacheUpdate (resolveScroll s) with rs := r } := by
    have h4 : resolveScroll { s with rs := r } = { resolveScroll s with rs := r } := h1 _ s
    rw [h4]
    exact h2 _ (resolveScroll s)
  simp only [refreshBand, composite, h3, compositeFb_rs]

/-- The components a refresh writes do not depend on `rs`. -/
theorem partialRefresh_rs (startLine endLine : Int) (s : State) (r : RasterState) :
    partialRefresh startLine endLine { s with rs := r } =
      { partialRefresh startLine endLine s with
        rs := { r with
          lastRedrawnLine := if min endLine s.cfg.visEnd ≤ max startLine s.cfg.visTop then r.lastRedrawnLine
            else BitVec.ofInt 16 (min endLine s.cfg.visEnd) } } := by
  unfold partialRefresh clipBand
  simp only
  split
  · rfl
  · exact refreshBand_rs ..

/-! ## The tick (`47_raster_fsm.md` R250) -/

/-- The branches of a tick, in the order of the chain, with the state each gives. -/
theorem tickBranch_cases (line : Half) (s : State) :
    (rasterHit s line = true ∧ tickBranch line s = tickRaster line s) ∨
    (rasterHit s line = false ∧ line = 248 ∧ tickBranch line s = tickVblank s) ∨
    (rasterHit s line = false ∧ line = 255 ∧ tickBranch line s = tickEndOfFrame s) ∨
    (rasterHit s line = false ∧ line = 250 ∧ s.cfg.quirkEovb250 = true ∧
      tickBranch line s = s.raiseIrq .endOfVblank) ∨
    (rasterHit s line = false ∧ line ≠ 248 ∧ line ≠ 255 ∧ ¬ (line = 250 ∧ s.cfg.quirkEovb250 = true) ∧
      tickBranch line s = s) := by
  unfold tickBranch
  by_cases h0 : rasterHit s line = true
  · exact .inl ⟨h0, by rw [if_pos h0]⟩
  · have h0' : rasterHit s line = false := by simpa using h0
    rw [if_neg h0]
    by_cases h1 : line = 248
    · subst h1; exact .inr (.inl ⟨h0', rfl, rfl⟩)
    · rw [if_neg (by simpa using h1)]
      by_cases h2 : line = 255
      · subst h2; exact .inr (.inr (.inl ⟨h0', rfl, rfl⟩))
      · rw [if_neg (by simpa using h2)]
        by_cases h3 : line = 250 ∧ s.cfg.quirkEovb250 = true
        · obtain ⟨rfl, hq⟩ := h3
          exact .inr (.inr (.inr (.inl ⟨h0', rfl, hq, by simp [hq]⟩)))
        · exact .inr (.inr (.inr (.inr ⟨h0', h1, h2, h3, by simp; intro h4 h5; exact absurd ⟨h4, h5⟩ h3⟩)))

/-- The test of the raster branch. -/
theorem rasterHit_iff (s : State) (line : Half) :
    rasterHit s line = true ↔ s.cfg.rasterEnable = true ∧ (line.toNat : Int) = s.rasterIrqLine := by
  simp [rasterHit, and_comm]

end Sys2Proof.Machine
end

