-- ==== Sys2Proof/Laws/Canonical.lean ====
section
/-! SUPPORT. Every operation that writes a byte memory keeps its canonical form, and the memories of the reset state have
it. -/

namespace Sys2Proof.Machine

theorem wf_setVramByte {s : State} (h : Memory.wf vramSize s.vram = true) (a : Half) (v : Byte) :
    Memory.wf vramSize (s.setVramByte a v).vram = true := Memory.wf_write h a.isLt v

theorem wf_setSprLiveByte {s : State} (h : Memory.wf sprSize s.sprLive = true) {a : Nat} (ha : a ≤ 0x7FF) (v : Byte) :
    Memory.wf sprSize (s.setSprLiveByte a v).sprLive = true :=
  Memory.wf_write h (Nat.lt_succ_of_le ha) v

/-- The swap gives both sprite copies contents that are canonical. -/
theorem wf_spriteSwap {s : State} (h : Memory.wf sprSize s.sprLive = true) (clear : Bool) :
    Memory.wf sprSize (spriteSwap clear s).sprBuf = true ∧ Memory.wf sprSize (spriteSwap clear s).sprLive = true := by
  rw [spriteSwap_eq]
  refine ⟨h, ?_⟩
  cases clear
  · exact h
  · exact Memory.wf_nil sprSize

/-- The memories of the reset state, under any configuration. -/
theorem wf_resetWith (c : Cfg) :
    Memory.wf vramSize (State.resetWith c).vram = true ∧ Memory.wf sprSize (State.resetWith c).sprLive = true ∧
      Memory.wf sprSize (State.resetWith c).sprBuf = true := ⟨rfl, rfl, rfl⟩

/-- The memories of `State.reset`. -/
theorem wf_reset : Memory.wf vramSize State.reset.vram = true ∧ Memory.wf sprSize State.reset.sprLive = true ∧
    Memory.wf sprSize State.reset.sprBuf = true := wf_resetWith Config.board

end Sys2Proof.Machine
end

