-- ==== Sys2Proof/Laws/PerInstr.lean ====
section
/-! SUPPORT. What is said of every command, constructor by constructor: the opcode its word carries. -/

namespace Sys2Proof.Laws.OpcodeOf

/-- The `OP` value of each command (`30_encoding.md` R93). -/
def opcode : Instr → BitVec 4
  | .nop => 0x0
  | .vramWr _ _ => 0x1
  | .vramRd _ => 0x2
  | .sprWr _ _ => 0x3
  | .sprRd _ => 0x4
  | .pfctlWr _ _ _ => 0x5
  | .mctlWr _ _ => 0x6
  | .sprctlWr _ _ => 0x7
  | .sprbufTrig _ _ => 0x8
  | .scanTick _ => 0x9
  | .statusRd => 0xA
  | .frameStart => 0xB
  | .reservedC => 0xC
  | .reservedD => 0xD
  | .reservedE => 0xE
  | .reservedF => 0xF

/-- The word of the command carries its opcode, whatever its operands. -/
def Statement (i : Instr) : Prop := opField (encode i) = opcode i

theorem nop : Statement .nop := opField_packWord ..

theorem vramWr (offset : Half) (value : Byte) : Statement (.vramWr offset value) := opField_packWord ..

theorem vramRd (offset : Half) : Statement (.vramRd offset) := opField_packWord ..

theorem sprWr (offset : Half) (value : Byte) : Statement (.sprWr offset value) := opField_packWord ..

theorem sprRd (offset : Half) : Statement (.sprRd offset) := opField_packWord ..

theorem pfctlWr (layer : BitVec 4) (index : Half) (value : Byte) : Statement (.pfctlWr layer index value) :=
  opField_packWord ..

theorem mctlWr (index : Half) (value : Byte) : Statement (.mctlWr index value) := opField_packWord ..

theorem sprctlWr (offset : Half) (value : Byte) : Statement (.sprctlWr offset value) := opField_packWord ..

theorem sprbufTrig (offset : Half) (value : Byte) : Statement (.sprbufTrig offset value) := opField_packWord ..

theorem scanTick (line : Half) : Statement (.scanTick line) := opField_packWord ..

theorem statusRd : Statement .statusRd := opField_packWord ..

theorem frameStart : Statement .frameStart := opField_packWord ..

theorem reservedC : Statement .reservedC := opField_packWord ..

theorem reservedD : Statement .reservedD := opField_packWord ..

theorem reservedE : Statement .reservedE := opField_packWord ..

theorem reservedF : Statement .reservedF := opField_packWord ..

end Sys2Proof.Laws.OpcodeOf
end

