-- ==== Sys2Proof/Laws/Sprites.lean ====
section
/-! SUPPORT. The sprite engine seen as lists: the records a draw visits, the cells of one record, which do not overlap,
and the pixel a pass leaves at a position. -/

namespace Sys2Proof.Machine

/-- Two cells share no position. -/
def Blit.Apart (b e : Blit) : Prop := b.x + 16 ≤ e.x ∨ e.x + 16 ≤ b.x ∨ b.y + 16 ≤ e.y ∨ e.y + 16 ≤ b.y

theorem blitPixel_inside {c : Cfg} {b : Blit} {x y : Nat} {p : Pixel} (h : blitPixel c b x y = some p) :
    b.x ≤ x ∧ (x : Int) < b.x + 16 ∧ b.y ≤ y ∧ (y : Int) < b.y + 16 := by
  unfold blitPixel at h
  simp only at h
  split at h
  · rename_i hin
    simp only [Bool.and_eq_true, decide_eq_true_eq] at hin
    omega
  · cases h

/-- Of two cells apart, one at most writes a position. -/
theorem Blit.Apart.exclusive {b e : Blit} (h : b.Apart e) (c : Cfg) (x y : Nat) :
    blitPixel c b x y = none ∨ blitPixel c e x y = none := by
  cases hb : blitPixel c b x y with
  | none => exact .inl rfl
  | some p =>
    cases he : blitPixel c e x y with
    | none => exact .inr rfl
    | some q =>
      have h1 := blitPixel_inside hb
      have h2 := blitPixel_inside he
      unfold Blit.Apart at h
      omega

/-- Every cell of a column stands at the column, on or above row `j`. -/
theorem mem_columnBlits {r : SpriteRecord} {x : Int} {n : Nat} {j step : Int} {b : Blit}
    (h : b ∈ columnBlits r x n j step) : b.x = x ∧ b.y ≤ r.screenY - 16 * j := by
  induction n generalizing j step with
  | zero => simp [columnBlits] at h
  | succ n ih =>
    rw [columnBlits, List.mem_cons] at h
    rcases h with rfl | h
    · exact ⟨rfl, le_refl _⟩
    · have := ih h
      exact ⟨this.1, by omega⟩

theorem columnBlits_apart (r : SpriteRecord) (x : Int) (n : Nat) (j step : Int) :
    (columnBlits r x n j step).Pairwise Blit.Apart := by
  induction n generalizing j step with
  | zero => simp [columnBlits]
  | succ n ih =>
    rw [columnBlits, List.pairwise_cons]
    refine ⟨fun b hb => ?_, ih _ _⟩
    have := (mem_columnBlits hb).2
    unfold Blit.Apart
    simp only; omega

/-- Every cell of the columns from `x` on stands at `x` or beyond it in the direction the columns advance. -/
theorem mem_spriteColumns {c : Cfg} {r : SpriteRecord} {n : Nat} {i x : Int} {b : Blit}
    (h : b ∈ spriteColumns c r n i x) : if r.flipX then b.x ≤ x else x ≤ b.x := by
  induction n generalizing i x with
  | zero => simp [spriteColumns] at h
  | succ n ih =>
    rw [spriteColumns, List.mem_append] at h
    rcases h with h | h
    · have := (mem_columnBlits h).1
      split <;> omega
    · have := ih h
      split at this <;> rename_i hf <;> simp only [hf] at this ⊢ <;> simp at this ⊢ <;> omega

theorem spriteColumns_apart (c : Cfg) (r : SpriteRecord) (n : Nat) (i x : Int) :
    (spriteColumns c r n i x).Pairwise Blit.Apart := by
  induction n generalizing i x with
  | zero => simp [spriteColumns]
  | succ n ih =>
    rw [spriteColumns, List.pairwise_append]
    refine ⟨columnBlits_apart .., ih _ _, fun b hb e he => ?_⟩
    have h1 := (mem_columnBlits hb).1
    have h2 := mem_spriteColumns he
    unfold Blit.Apart
    cases hf : r.flipX <;> simp only [hf] at h2 <;> simp at h2 <;> omega

/-- The cells of one record do not overlap (`46_sprite_engine.md` R238). -/
theorem spriteBlits_apart (c : Cfg) (r : SpriteRecord) : (spriteBlits c r).Pairwise Blit.Apart :=
  spriteColumns_apart ..

/-- Where at most one element gives a value, the first that does is the last. -/
theorem findSome_reverse_of_exclusive {α β : Type} {f : α → Option β} {l : List α}
    (h : l.Pairwise fun a b => f a = none ∨ f b = none) : l.reverse.findSome? f = l.findSome? f := by
  induction l with
  | nil => rfl
  | cons a l ih =>
    rw [List.pairwise_cons] at h
    rw [List.reverse_cons, List.findSome?_append, ih h.2, List.findSome?_cons]
    cases ha : f a with
    | none => simp [ha]
    | some v =>
      have : l.findSome? f = none := by
        rw [List.findSome?_eq_none_iff]
        intro b hb
        rcases h.1 b hb with h | h
        · rw [ha] at h; cases h
        · exact h
      simp [this, ha]

/-- The pixel one record leaves does not depend on the order of its cells. -/
theorem findSome_spriteBlits_reverse (c : Cfg) (r : SpriteRecord) (x y : Nat) :
    ((spriteBlits c r).reverse.findSome? fun b => blitPixel c b x y) =
      (spriteBlits c r).findSome? fun b => blitPixel c b x y :=
  findSome_reverse_of_exclusive ((spriteBlits_apart c r).imp fun h => h.exclusive c x y)

end Sys2Proof.Machine
end

