-- ==== Sys2Proof/Laws/Pixels.lean ====
section
/-! SUPPORT. The plain arithmetic of `Safety.lean` against the machine's own definitions, one lemma for each: layers,
row tables, samples, priority, sprite cells. -/

namespace Sys2Proof.Machine

theorem playfieldOf_eq (L : Layer) : playfieldOf L = L.playfield := by cases L <;> rfl

theorem mapWidth_eq (L : Layer) : mapWidth L = L.width := by cases L <;> rfl

theorem mapWidth_tiles (L : Layer) : mapWidth L / 8 * 64 = L.tiles := by cases L <;> rfl

theorem mapWidth_cols (L : Layer) : mapWidth L / 8 = L.cols := by cases L <;> rfl

theorem variantOf_eq (L : Layer) : variantOf L = L.variant := by cases L <;> rfl

theorem mem_existingLayers_iff (c : Cfg) (L : Layer) : L ∈ existingLayers c ↔ (L = .pf1h → c.speedup = true) := by
  rw [mem_existingLayers]; tauto

/-- An entry of a row table, in plain arithmetic (`20_memory.md` R66). -/
theorem rowWord_eq (s : State) (p : Playfield) (r : Nat) : rowWord s p r = (s.rowEntry p r).toNat := by
  have hb : ∀ k, rowTable p + BitVec.ofNat 16 k = BitVec.ofNat 16 (rowTableAt p + k) := by
    intro k
    cases p <;> exact (BitVec.ofNat_add ..).symm
  unfold rowWord State.rowEntry
  rw [hb, hb, toNat_bytePair]
  rfl

theorem shownLayer_eq (s : State) (p : Playfield) : shownLayer s p = s.activeLayer p := by
  cases p
  · have : (s.layerCtl .pf1).ptr.toNat = 0xC000 ↔ (s.layerCtl .pf1).ptr = 0xC000 := by
      constructor
      · exact fun h => BitVec.eq_of_toNat_eq h
      · intro h; rw [h]; rfl
    simp [shownLayer, State.activeLayer, this]
  · rfl
  · rfl

theorem shownRow_eq (s : State) (L : Layer) (y : Nat) : shownRow s L y = sampleRow s L y := rfl

theorem shownCol_eq (s : State) (L : Layer) (x y : Nat) : shownCol s L x y = sampleCol s L x (sampleRow s L y) := by
  unfold shownCol sampleCol
  rw [mapWidth_eq]
  cases (s.scroll.get L).rows <;> rfl

theorem entryPen_eq (c : Cfg) (te : TileEntry) (u v : Nat) : entryPen c te u v = tilePenAt c te u v := rfl

/-- What a layer shows at a position is its sample there (`45_partial_refresh.md` R203). -/
theorem layerSample_eq (s : State) (L : Layer) (x y : Nat) :
    layerSample s L x y = { tile := shownEntry s L x y, pen := shownPen s L x y } := by
  unfold layerSample shownPen shownEntry
  rw [shownCol_eq, mapWidth_cols]
  rfl

theorem isHigh_iff (te : TileEntry) (pen : BitVec 4) :
    isHigh te pen = true ↔
      (te.priorityClass = .fullAboveAlt ∨ te.priorityClass = .fullAbove) ∧ pen.toNat ≠ 0 ∨
        te.priorityClass = .splitTop8Pens ∧ 8 ≤ pen.toNat := by
  have h0 : pen.toNat = 0 ↔ pen = 0#4 := ⟨fun h => BitVec.eq_of_toNat_eq h, fun h => by rw [h]; rfl⟩
  unfold isHigh
  cases te.priorityClass <;> simp [h0]

/-- A sprite cell's pixel, in plain arithmetic (`46_sprite_engine.md` R235). -/
theorem cellPixel_eq (c : Cfg) (b : Blit) (x y : Nat) : cellPixel c b x y = blitPixel c b x y := by
  have h0 : ∀ pen : BitVec 4, pen.toNat ≠ 0 ↔ ¬ pen = 0 := fun pen =>
    not_congr ⟨fun h => BitVec.eq_of_toNat_eq h, fun h => by rw [h]; rfl⟩
  unfold cellPixel blitPixel
  simp only [Bool.and_eq_true, decide_eq_true_eq, h0]
  by_cases hin : ((0 ≤ (x : Int) - b.x ∧ (x : Int) - b.x < 16) ∧ 0 ≤ (y : Int) - b.y) ∧ (y : Int) - b.y < 16
  · have hp : b.x ≤ x ∧ (x : Int) < b.x + 16 ∧ b.y ≤ y ∧ (y : Int) < b.y + 16 := by omega
    rw [if_pos hin]
    simp only [hp, true_and, spritePen, ite_not]
    rfl
  · rw [if_neg hin, if_neg fun h => hin (by omega)]

/-- The pixel the nine cases give does not depend on the framebuffer or the raster state. -/
theorem compositePixel_fb_rs (s : State) (fb : Cells Pixel) (rs : RasterState) (x y : Nat) :
    compositePixel { s with fb := fb, rs := rs } x y = compositePixel s x y := rfl

end Sys2Proof.Machine
end

