-- ==== Sys2Proof/Tests/Slice0.lean ====
section
/-! SUPPORT. Tests, their expected results taken from the spec: the words of `30_encoding.md` R93 and R106, the worked
examples of the family files and the vectors of `95_test_vectors.md`. Then, for every statement with hypotheses, a
concrete state and operands that meet them. -/

namespace Sys2Proof.Tests

open Sys2Proof.Machine

/-! ## Decoding: words written bit by bit (OP, SEL, ADDR, DATA) -/

theorem test_decode_nop : decode (0b0000#4 ++ 0b0000#4 ++ 0b0000000000000000#16 ++ 0b00000000#8) = .nop := by decide

/-- `95_test_vectors.md` 2.9: all fields of `NOP` are ignored. -/
theorem test_decode_nop_fields_ignored : decode 0x0FFFFFFF = .nop := by decide

/-- `VRAM_WR 0xF402, 0x10` (R106). -/
theorem test_decode_vramWr :
    decode (0b0001#4 ++ 0b0000#4 ++ 0b1111010000000010#16 ++ 0b00010000#8) = .vramWr 0xF402 0x10 := by decide

/-- `SEL` of `VRAM_WR` is ignored (2.9). -/
theorem test_decode_vramWr_sel_ignored : decode 0x1F001685 = .vramWr 0x0016 0x85 := by decide

/-- `VRAM_RD 0xF402` (R106). -/
theorem test_decode_vramRd :
    decode (0b0010#4 ++ 0b0000#4 ++ 0b1111010000000010#16 ++ 0b00000000#8) = .vramRd 0xF402 := by decide

/-- `SPR_WR 0x006, 0x90` (R106). -/
theorem test_decode_sprWr :
    decode (0b0011#4 ++ 0b0000#4 ++ 0b0000000000000110#16 ++ 0b10010000#8) = .sprWr 0x006 0x90 := by decide

/-- `SPR_RD 0x006` (R106). -/
theorem test_decode_sprRd :
    decode (0b0100#4 ++ 0b0000#4 ++ 0b0000000000000110#16 ++ 0b00000000#8) = .sprRd 0x006 := by decide

/-- `PFCTL_WR pf2, 4, 0x20` (R106). -/
theorem test_decode_pfctlWr :
    decode (0b0101#4 ++ 0b0001#4 ++ 0b0000000000000100#16 ++ 0b00100000#8) = .pfctlWr 1 4 0x20 := by decide

/-- `MCTL_WR 6, 0x80` (R106). -/
theorem test_decode_mctlWr :
    decode (0b0110#4 ++ 0b0000#4 ++ 0b0000000000000110#16 ++ 0b10000000#8) = .mctlWr 6 0x80 := by decide

/-- `SPRCTL_WR 8, 0x00` (R106). -/
theorem test_decode_sprctlWr :
    decode (0b0111#4 ++ 0b0000#4 ++ 0b0000000000001000#16 ++ 0b00000000#8) = .sprctlWr 8 0x00 := by decide

/-- `SPRBUF_TRIG 0, 0x00` (R106). -/
theorem test_decode_sprbufTrig :
    decode (0b1000#4 ++ 0b0000#4 ++ 0b0000000000000000#16 ++ 0b00000000#8) = .sprbufTrig 0 0x00 := by decide

/-- `SCAN_TICK 248` (R106). -/
theorem test_decode_scanTick :
    decode (0b1001#4 ++ 0b0000#4 ++ 0b0000000011111000#16 ++ 0b00000000#8) = .scanTick 248 := by decide

/-- `DATA` of `SCAN_TICK` is ignored (2.9). -/
theorem test_decode_scanTick_data_ignored : decode 0x900064FF = .scanTick 100 := by decide

/-- `STATUS_RD` (R106, 2.9). -/
theorem test_decode_statusRd : decode 0xA0000000 = .statusRd ∧ decode 0xA0FFFFFF = .statusRd := by decide

/-- `FRAME_START` (R106, 2.9). -/
theorem test_decode_frameStart : decode 0xB0000000 = .frameStart ∧ decode 0xBFFFFFFF = .frameStart := by decide

/-- The reserved opcodes (R93, 2.9). -/
theorem test_decode_reserved :
    decode 0xC0000000 = .reservedC ∧ decode 0xD1234567 = .reservedD ∧ decode 0xE0000000 = .reservedE ∧
      decode 0xFFFFFFFF = .reservedF := by decide

/-- The encoder writes the words of R106. -/
theorem test_encode_words :
    encode (.pfctlWr 1 4 0x20) = 0x51000420 ∧ encode (.scanTick 248) = 0x9000F800 ∧
      encode (.vramWr 0xF402 0x10) = 0x10F40210 := by decide

theorem test_decodeTableWord :
    decodeTableWord 32 0x9000F800 = some (.scanTick 248) ∧ decodeTableWord 8 0xFF = some .nop ∧
      decodeTableWord 40 0 = none := by decide

/-! ## Operand ranges: one command outside for each check, and the last one inside -/

theorem test_range_sprWr : (Instr.sprWr 0x800 0).inRange = false ∧ (Instr.sprWr 0x7FF 0).inRange = true := by decide

theorem test_range_sprRd : (Instr.sprRd 0x800).inRange = false ∧ (Instr.sprRd 0x7FF).inRange = true := by decide

theorem test_range_pfctlWr_layer :
    (Instr.pfctlWr 3 0 0).inRange = false ∧ (Instr.pfctlWr 2 7 0).inRange = true := by decide

theorem test_range_pfctlWr_index : (Instr.pfctlWr 0 8 0).inRange = false := by decide

theorem test_range_mctlWr : (Instr.mctlWr 8 0).inRange = false ∧ (Instr.mctlWr 7 0).inRange = true := by decide

theorem test_range_sprctlWr : (Instr.sprctlWr 9 0).inRange = false ∧ (Instr.sprctlWr 8 0).inRange = true := by decide

theorem test_range_sprbufTrig :
    (Instr.sprbufTrig 2 0).inRange = false ∧ (Instr.sprbufTrig 1 0).inRange = true := by decide

/-! ## The test machine -/

/-- A configuration with a window of five columns and two rows: lines 8 and 9, columns 80 to 84. -/
def cfgOf (chip : SpriteChip) (raster speedup : Bool) : Cfg where
  spriteChip := chip
  rasterEnable := raster
  quirkEovb250 := true
  speedup := speedup
  irqVectorBase := 0x80
  vectorOf := { vblank := 0, spriteBufferComplete := 1, raster := 2, endOfVblank := 3 }
  visTop := 8
  visEnd := 10
  visLeft := 80
  visRight := 84
  sprColStride := 8
  tileRom := (List.range 16).map fun k => (7 * 64 + k, BitVec.ofNat 4 k)
  sprRom := [1, 2].flatMap fun p =>
    (List.range 32).map fun k => (p * 256 + k, BitVec.ofNat 4 (p + k % 16 + k / 16))
  boardMap := .standard
  vblankBit := { position := 7, activeHigh := true }

/-- No tile is dirty. -/
def noneDirty : DirtyBits := { pf1n := 0, pf1w := 0, pf2n := 0, pf3n := 0, pf3w := 0, pf1h := 0 }

/-- The reset state with every dirty bit clear: `S_clean` of `95_test_vectors.md` but for `rs`. -/
def clean (c : Cfg) : State := { State.resetWith c with dirty := noneDirty }

/-- A chip 1 machine with raster interrupts. -/
def clean1 : State := clean (cfgOf .one true false)

/-- A chip 0 machine without raster interrupts. -/
def clean0 : State := clean (cfgOf .zero false false)

/-- A chip 1 machine with the speed-up path. -/
def cleanSpeedup : State := clean (cfgOf .one true true)

/-- The state after a command; no command faults or is refused. -/
def after (i : Instr) (s : State) : State :=
  match exec i s with
  | .next t => t
  | .fault f => nomatch f
  | .refused _ => s

/-- Whether every listed tile is dirty. -/
def dirtyAll (s : State) (ts : List (Layer × Nat)) : Bool := ts.all fun t => s.isDirty t.1 t.2

/-- Whether no listed tile is dirty. -/
def dirtyNone (s : State) (ts : List (Layer × Nat)) : Bool := ts.all fun t => !s.isDirty t.1 t.2

/-! ## VRAM (`95_test_vectors.md` 2.2) -/

/-- Rows 1 to 3: the alias bank marks, with the wide index; a bank that matches nothing does not. -/
theorem test_vramWr_marks :
    (after (.vramWr 0x0016 0x85) clean1).vramByte 0x0016 = 0x85 ∧
      dirtyAll (after (.vramWr 0x0016 0x85) clean1) [(.pf1n, 5), (.pf1w, 5), (.pf2n, 5), (.pf3n, 5), (.pf3w, 5)] = true ∧
      dirtyAll (after (.vramWr 0x4010 0x01) clean1)
        [(.pf1n, 4), (.pf1w, 0x1004), (.pf2n, 4), (.pf3n, 4), (.pf3w, 0x1004)] = true ∧
      (after (.vramWr 0x8000 0x01) clean1).dirty = noneDirty := by decide +kernel

/-- Rows 6 to 8: at pointer 0xC000 the alias sum equals no bank, and the wide index is 0x1000 away; under the speed-up
flag a write to bank 0xC000 marks the high layer for playfield 1. -/
theorem test_vramWr_top_bank :
    let s := { after (.mctlWr 0 3) clean1 with dirty := noneDirty }
    let f := { after (.mctlWr 2 3) cleanSpeedup with dirty := noneDirty }
    dirtyAll (after (.vramWr 0x0000 0x01) s) [(.pf2n, 0), (.pf3n, 0), (.pf3w, 0)] = true ∧
      dirtyNone (after (.vramWr 0x0000 0x01) s) [(.pf1n, 0), (.pf1w, 0)] = true ∧
      dirtyAll (after (.vramWr 0xFFFF 0x01) s) [(.pf1n, 4095), (.pf1w, 8191)] = true ∧
      dirtyAll (after (.vramWr 0xC004 0x01) f) [(.pf1h, 1), (.pf2n, 1)] = true ∧
      dirtyNone (after (.vramWr 0xC004 0x01) f) [(.pf1n, 1), (.pf1w, 1), (.pf1w, 0x1001)] = true := by decide +kernel

theorem test_vramRd : (after (.vramRd 0x0016) (after (.vramWr 0x0016 0x85) clean1)).out.response = some 0x85 := by
  decide +kernel

/-- `TileAddr` (2.1). -/
theorem test_tileAddr :
    clean1.tileAddr .pf1n 1098 = 0x1128 ∧ clean1.tileAddr .pf3w 0x1004 = 0x4010 ∧
      (after (.mctlWr 0 3) clean1).tileAddr .pf1w 0x1000 = 0x0000 ∧ clean1.tileAddr .pf1h 1 = 0xC004 := by decide +kernel

/-- `DECODE_TILE` (2.1). -/
theorem test_decode_tile :
    tileEntryOfBytes .a 0x34 0x12 0x85 0x06 = ⟨0x1234, 5, .splitTop8Pens, true, true⟩ ∧
      tileEntryOfBytes .a 0xFF 0xFF 0xFF 0xFF = ⟨0xFFFF, 63, .fullAboveAlt, true, true⟩ ∧
      tileEntryOfBytes .b 0xFF 0xFF 0xFF 0xFF = ⟨0xFFFF, 63, .splitTop8Pens, true, true⟩ ∧
      tileEntryOfBytes .b 0x01 0x00 0x40 0x01 = ⟨0x0001, 0, .normal, false, false⟩ ∧
      tileEntryOfBytes .a 0x10 0x20 0x3F 0x02 = ⟨0x2010, 63, .normal, true, false⟩ ∧
      tileEntryOfBytes .a 0x10 0x20 0x80 0x04 = ⟨0x2010, 0, .splitTop8Pens, false, true⟩ := by decide

/-! ## Playfield and master control (2.3, 2.4) -/

theorem test_pfctlWr :
    (after (.pfctlWr 0 5 0x01) (after (.pfctlWr 0 4 0xB0) clean1)).scrollX .pf1 = 432 ∧
      (after (.pfctlWr 2 1 0x01) (after (.pfctlWr 2 0 0x78) clean1)).scrollY .pf3 = 376 := by decide +kernel

theorem test_pfctlWr_out_of_range :
    (after (.pfctlWr 3 0 0x01) clean1).pfctl = clean1.pfctl ∧ (after (.pfctlWr 0 8 0x01) clean1).pfctl = clean1.pfctl := by
  decide +kernel

theorem test_mctlWr_select :
    (after (.mctlWr 0 0x06) clean1).layerCtl .pf1 = ⟨0x8000, true, true, false⟩ ∧
      (after (.mctlWr 2 0x43) clean1).layerCtl .pf2 = ⟨0xC000, false, true, true⟩ ∧
      (after (.mctlWr 4 0x14) clean1).layerCtl .pf3 = ⟨0x0000, true, false, false⟩ ∧
      (after (.mctlWr 0 0xA8) clean1).layerCtl .pf1 = ⟨0x0000, false, true, false⟩ ∧
      (after (.mctlWr 4 0x06) cleanSpeedup).layerCtl .pf3 = ⟨0x8000, false, true, false⟩ ∧
      dirtyAll (after (.mctlWr 0 0x06) clean1) [(.pf1n, 0), (.pf1n, 4095), (.pf1w, 8191)] = true ∧
      (after (.mctlWr 4 0x14) clean1).dirty = noneDirty ∧
      dirtyNone (after (.mctlWr 0 0x03) cleanSpeedup) [(.pf1h, 0), (.pf1h, 4095)] = true ∧
      (after (.mctlWr 0 0x03) cleanSpeedup).activeLayer .pf1 = .pf1h := by decide +kernel

/-- The raster line through its two bytes, its lowest and highest values, and the warning of the machine without raster
interrupts. -/
theorem test_mctlWr_raster :
    let s := after (.mctlWr 6 0x80) clean0
    let t := after (.mctlWr 7 0x01) s
    (s.rasterIrqLine, s.warnRasterCfg) = (0, false) ∧ (t.rasterIrqLine, t.warnRasterCfg, t.out.warn) = (256, true, true) ∧
      (after (.mctlWr 7 0x01) (after (.mctlWr 6 0x80) clean1)).warnRasterCfg = false ∧
      (after (.mctlWr 6 0x7F) clean0).rasterIrqLine = -1 ∧
      (after (.mctlWr 7 0xFF) (after (.mctlWr 6 0xFF) clean0)).rasterIrqLine = 65407 ∧
      (after (.mctlWr 6 0xFF) clean0).warnRasterCfg = false ∧ (after (.mctlWr 7 0x01) clean0).warnRasterCfg = true := by
  decide +kernel

/-! ## Sprites (2.7) -/

/-- A live record of eight bytes. -/
def live0 (s : State) : State := { s with sprLive := [(0, 0x68), (1, 0x01), (2, 0x01), (4, 0x03), (6, 0x60)] }

theorem test_sprWr_sprRd :
    (after (.sprRd 0x006) (after (.sprWr 0x006 0x90) clean1)).out.response = some 0x90 ∧
      (after (.sprWr 0x800 0x01) clean1).sprLive = [] ∧ (after (.sprRd 0x800) (live0 clean1)).out.response = some 0 := by
  decide +kernel

theorem test_swap_chip_one :
    let t := after (.sprctlWr 8 0x5A) (live0 clean1)
    t.sprBuf = (live0 clean1).sprLive ∧ t.sprLive = [] ∧ t.spriteReg 8 = 0x5A ∧ t.out.irqs = [.spriteBufferComplete] ∧
      (after (.sprbufTrig 0 0) (live0 clean1)).sprBuf = [] := by decide +kernel

theorem test_swap_chip_zero :
    let t := after (.sprbufTrig 0 0xFF) (live0 clean0)
    t.sprBuf = (live0 clean0).sprLive ∧ t.sprLive = (live0 clean0).sprLive ∧ t.out.irqs = [.spriteBufferComplete] ∧
      (after (.sprbufTrig 1 0) (live0 clean0)).sprBuf = [] ∧ (after (.sprctlWr 8 0) (live0 clean0)).sprBuf = [] := by
  decide +kernel

/-- `ListStart` (`46_sprite_engine.md` R231). -/
theorem test_listStart :
    listStart clean0 = -8 ∧ listStart (after (.sprctlWr 0 0x01) clean0) = 0x7F0 ∧
      listStart (after (.sprctlWr 0 0x80) clean0) = 0x3F8 ∧ listStart (after (.sprctlWr 0 0xFF) clean0) = 0 ∧
      listStart clean1 = 0x7F8 := by decide +kernel

theorem test_decode_sprite :
    spriteOfBytes 0x00 0x09 0x34 0x12 0x85 0x01 0x60 0x00 = ⟨256, 96, 0x1234, 5, true, false, 2, 1, true⟩ ∧
      spriteOfBytes 0x2C 0x13 0x00 0x20 0x01 0x03 0xC8 0x00 = ⟨300, 200, 0x2000, 1, true, true, 4, 2, false⟩ ∧
      (spriteOfBytes 0x2C 0x01 0x00 0x01 0x01 0x00 0x00 0xFE).onScreen = false := by decide +kernel

/-- The pattern and place of each cell, in order. -/
def cellList (r : SpriteRecord) : List (Nat × Int × Int) :=
  (spriteBlits clean1.cfg r).map fun b => (b.pattern.toNat, b.x, b.y)

/-- `46_sprite_engine.md` R243 and R242; the pattern number wraps. -/
theorem test_cells :
    cellList ⟨256, 96, 0x1000, 3, false, false, 2, 2, false⟩ =
        [(0x1001, 80, 240), (0x1000, 80, 224), (0x1009, 96, 240), (0x1008, 96, 224)] ∧
      cellList ⟨300, 200, 0xFFFF, 1, false, false, 2, 1, false⟩ = [(0xFFFF, 184, 196), (0x0007, 200, 196)] := by
  decide +kernel

theorem test_cells_flipped :
    cellList ⟨300, 200, 0x2000, 1, true, true, 4, 2, false⟩ =
      [(0x2000, 232, 196), (0x2001, 232, 180), (0x2008, 216, 196), (0x2009, 216, 180), (0x2010, 200, 196),
        (0x2011, 200, 180), (0x2018, 184, 196), (0x2019, 184, 180)] := by decide +kernel

/-! ## Scroll (2.5) -/

theorem test_resolveX :
    resolveX .pf2n 0x0000 = 0xFFFE ∧ resolveX .pf3n 0x0002 = 0xFFFE ∧ resolveX .pf1w 0xFF00 = 0x0000 ∧
      resolveX .pf3w 0x01FF = 0x02FB ∧ resolveX .pf1h 0x0010 = 0x0010 := by decide +kernel

/-- Scenario 2 (`45_partial_refresh.md` R215). -/
theorem test_rowscroll :
    let s := after (.mctlWr 0 0x40) (after (.vramWr 0xF402 0x10) clean1)
    let t := partialRefresh 8 9 s
    (t.scroll.get .pf1n).rows = .all512 ∧ t.rsx .pf1n 1 = 0x0010 ∧ t.rsx .pf1w 1 = 0x0110 ∧ t.rsx .pf1w 511 = 0x0100 ∧
      t.rsx .pf2n 0 = 0xFFFE ∧ t.rsx .pf3w 0 = 0x00FC := by decide +kernel

/-! ## The composite: program 3.3 of `95_test_vectors.md`, its first two rows -/

/-- Tile 1098, playfields 2 and 3 off, the two sprites in the rendered copy. -/
def split : State :=
  { clean1 with
    vram := [(0x1128, 0x07), (0x112A, 0x85)]
    sprBuf := [(0, 0x68), (1, 0x01), (2, 0x01), (4, 0x03), (6, 0x60), (8, 0x68), (9, 0x01), (10, 0x02), (12, 0x84), (14, 0x64)]
    lc := { pf1 := ⟨0, false, true, false⟩, pf2 := ⟨0, false, false, false⟩, pf3 := ⟨0, false, false, false⟩ }
    dirty := noneDirty.mark .pf1n 1098 }

theorem test_composite :
    let t := partialRefresh 0 248 split
    [t.pixel 136 80, t.pixel 136 81, t.pixel 137 80, t.pixel 137 83, t.pixel 137 84, t.pixel 136 84, t.pixel 138 80] =
      [⟨2, 3, 1⟩, ⟨2, 3, 2⟩, ⟨1, 5, 8⟩, ⟨1, 5, 11⟩, ⟨2, 4, 3⟩, ⟨2, 4, 2⟩, Pixel.bg] := by decide +kernel

theorem test_composite_cache :
    let t := partialRefresh 0 248 split
    t.cacheEntry .pf1n 1098 = ⟨7, 5, .splitTop8Pens, false, false⟩ ∧ t.dirty = noneDirty ∧ t.rs.lastRedrawnLine = 10 := by
  decide +kernel

/-- With playfield 3 enabled its pen 0 is drawn, opaque (`45_partial_refresh.md` R216). -/
theorem test_composite_opaque_bottom : (partialRefresh 0 9 clean1).pixel 136 80 = ⟨1, 0, 0⟩ := by decide +kernel

/-! ## The raster state machine (2.8) -/

/-- The raster state with trigger line 100. -/
def at100 : State := { clean1 with rasterIrqLine := 100, rs := { RasterState.top with rasterMachineActive := true } }

/-- The raster branch, at line 255 too (`47_raster_fsm.md` R257), and the truncation of R252 where the band is empty. -/
theorem test_tick_raster :
    let t := after (.scanTick 100) { at100 with rs := { at100.rs with lastRedrawnLine := 100 } }
    let u := after (.scanTick 255) { at100 with rasterIrqLine := 255, rs := ⟨true, true, 248, 254⟩ }
    t.rs = ⟨false, true, 101, 100⟩ ∧ t.out.irqs = [.raster] ∧ u.rs = ⟨true, true, 256, 255⟩ ∧ u.out.irqs = [.raster] ∧
      (after (.scanTick 0xFFFF) { at100 with rasterIrqLine := 65535, rs := ⟨false, true, 300, 0⟩ }).rs.lastRedrawnLine =
        0 := by decide +kernel

/-- The other branches, with `STATUS_RD` and `FRAME_START`. -/
theorem test_tick_other :
    let t := after (.scanTick 248) { at100 with rs := ⟨false, true, 101, 247⟩ }
    let s := { at100 with rs := ⟨true, true, 248, 249⟩ }
    t.rs = ⟨true, true, 248, 248⟩ ∧ t.out.irqs = [.vblank] ∧ (after .statusRd t).out.response = some 0x01 ∧
      (after (.scanTick 250) s).out.irqs = [.endOfVblank] ∧ (after (.scanTick 250) s).rs = ⟨true, true, 248, 250⟩ ∧
      (after (.scanTick 255) s).rs = ⟨false, true, 0, 255⟩ ∧ (after .frameStart s).rs = ⟨false, false, 0, 0⟩ ∧
      (after (.scanTick 99) at100).rs = ⟨false, true, 0, 99⟩ ∧ (after (.scanTick 99) at100).out.irqs = [] := by
  decide +kernel

/-! ## The command port (`00_scope.md` R15, `70_reset_and_hazards.md` R300, R302) -/

/-- A state with one command word waiting at its port. -/
def presented (s : State) (w : CmdWord) : State := { s with port := [.command w] }

/-- A state with the `RESET` pin asserted before one more command. -/
def pinThen (s : State) (w : CmdWord) : State := { s with port := [.reset, .command w] }

/-- The state after a step; no step faults or is refused. -/
def stepped (s : State) : State :=
  match step s with
  | .next t => t
  | .fault f => nomatch f
  | .refused _ => s

theorem test_step_command :
    (stepped (presented clean1 0x10001685)).vramByte 0x0016 = 0x85 ∧ (stepped (presented clean1 0x10001685)).port = [] := by
  decide +kernel

/-- `RESET` resets and takes nothing else off the port. -/
theorem test_step_reset :
    let t := stepped (pinThen (live0 (after (.mctlWr 0 0x16) clean1)) 0xA0000000)
    t.sprLive = [] ∧ t.layerCtl .pf1 = ⟨0, false, true, false⟩ ∧ t.port = [.command 0xA0000000] ∧
      t.isDirty .pf3w 8191 = true := by decide +kernel

/-! ## Witnesses: for each statement with hypotheses, states and operands that meet them -/

theorem witness_StepRunsPresentedCommand :
    (presented clean1 0x10001685).port = .command 0x10001685 :: [] ∧
      (presented clean0 0xFFFFFFFF).port = .command 0xFFFFFFFF :: [] := by decide +kernel

theorem witness_EmptyPortWaits : (live0 clean1).port = [] := by decide +kernel

theorem witness_ResetPinEstablishesResetState :
    (pinThen (live0 clean1) 0xA0000000).port = .reset :: [.command 0xA0000000] := by decide +kernel

/-- One command of each shape, just outside its range. -/
theorem witness_OutOfRangeOperandsAreIgnored :
    (Instr.sprWr 0x800 1).inRange = false ∧ (Instr.sprRd 0x800).inRange = false ∧ (Instr.sprRd 0xFFFF).inRange = false ∧
      (Instr.pfctlWr 3 0 1).inRange = false ∧ (Instr.pfctlWr 2 8 1).inRange = false ∧
      (Instr.mctlWr 8 1).inRange = false ∧ (Instr.sprctlWr 9 1).inRange = false ∧
      (Instr.sprbufTrig 2 1).inRange = false := by decide

/-- A canonical VRAM with its first and last byte listed. -/
theorem witness_VramWriteStoresAndMarks :
    Memory.wf vramSize { clean1 with vram := [(0, 1), (0xFFFF, 2)] }.vram = true := by decide +kernel

theorem witness_TileAddressesFollowTheBank :
    0 < Layer.pf1n.tiles ∧ 4095 < Layer.pf1n.tiles ∧ 8191 < Layer.pf1w.tiles ∧ 4095 < Layer.pf2n.tiles ∧
      4095 < Layer.pf3n.tiles ∧ 8191 < Layer.pf3w.tiles ∧ 4095 < Layer.pf1h.tiles := by decide

theorem witness_RasterBytesLatchLine :
    ((6 : Fin 8) = 6 ∨ (6 : Fin 8) = 7) ∧ ((7 : Fin 8) = 6 ∨ (7 : Fin 8) = 7) := by decide

theorem witness_RasterLineMismatchWarns :
    ((6 : Fin 8) = 6 ∨ (6 : Fin 8) = 7) ∧ ((7 : Fin 8) = 6 ∨ (7 : Fin 8) = 7) := by decide

/-- A line of 127 does not warn, one of 128 does, and never on a machine with raster interrupts. -/
theorem witness_RasterLineMismatchWarns_edges :
    (after (.mctlWr 6 0xFF) clean0).rasterIrqLine = 127 ∧ (after (.mctlWr 7 0x01) clean0).rasterIrqLine = 128 ∧
      clean0.cfg.rasterEnable = false ∧ clean1.cfg.rasterEnable = true := by decide +kernel

theorem witness_ReservedMasterRegistersOnlyStore :
    ((1 : Fin 8) = 1 ∨ (1 : Fin 8) = 3 ∨ (1 : Fin 8) = 5) ∧ ((3 : Fin 8) = 1 ∨ (3 : Fin 8) = 3 ∨ (3 : Fin 8) = 5) ∧
      ((5 : Fin 8) = 1 ∨ (5 : Fin 8) = 3 ∨ (5 : Fin 8) = 5) := by decide

/-- A canonical live copy with its first and last byte listed. -/
theorem witness_SpriteWriteStoresLive :
    Memory.wf sprSize { clean1 with sprLive := [(0, 1), (0x7FF, 2)] }.sprLive = true := by decide +kernel

/-- Offset 8 on chip 0; a lower offset on either chip. -/
theorem witness_SpriteControlWriteStores :
    ((8 : Fin 9) = 8 → clean0.cfg.spriteChip = .zero) ∧ ((7 : Fin 9) = 8 → clean1.cfg.spriteChip = .zero) := by decide

theorem witness_ChipOneSwapCopiesAndClears : (live0 clean1).cfg.spriteChip = .one := by decide

theorem witness_ChipZeroTriggerCopies : (live0 clean0).cfg.spriteChip = .zero := by decide

/-- Another offset on chip 0; offset 0 on chip 1. -/
theorem witness_OtherTriggersDoNothing :
    ((1 : Half) ≠ 0 ∨ clean0.cfg.spriteChip = .one) ∧ ((0 : Half) ≠ 0 ∨ clean1.cfg.spriteChip = .one) := by decide

/-- The trigger line, its lowest and its highest value. -/
theorem witness_RasterTickRedrawsThroughTriggerLine :
    at100.cfg.rasterEnable = true ∧ ((100 : Half).toNat : Int) = at100.rasterIrqLine ∧
      ((0 : Half).toNat : Int) = { at100 with rasterIrqLine := 0 }.rasterIrqLine ∧
      ((65407 : Half).toNat : Int) = { at100 with rasterIrqLine := 65407 }.rasterIrqLine := by decide

/-- Another trigger line; the line itself on a machine without raster interrupts. -/
theorem witness_VblankTickRedrawsAndRaises :
    ¬(at100.cfg.rasterEnable = true ∧ at100.rasterIrqLine = 248) ∧
      ¬(clean0.cfg.rasterEnable = true ∧ { clean0 with rasterIrqLine := 248 }.rasterIrqLine = 248) := by decide

theorem witness_EndOfFrameTickClears : ¬(at100.cfg.rasterEnable = true ∧ at100.rasterIrqLine = 255) := by decide

theorem witness_QuirkTickRaisesOnly :
    at100.cfg.quirkEovb250 = true ∧ ¬(at100.cfg.rasterEnable = true ∧ at100.rasterIrqLine = 250) := by decide

/-- Lines 0, 249 and 65535; line 250 on a machine without the quirk. -/
theorem witness_OtherTicksOnlyRecord :
    ([0, 249, 0xFFFF] : List Half).all (fun line =>
      !(at100.cfg.rasterEnable && (line.toNat : Int) == at100.rasterIrqLine) && line != 248 && line != 255 &&
        !(line == 250 && at100.cfg.quirkEovb250)) = true ∧
      ¬((250 : Half) = 250 ∧ { at100.cfg with quirkEovb250 := false }.quirkEovb250 = true) := by decide

theorem witness_FrameBandsCoverEachLineOnce : (0 : Int) ≤ 0 ∧ (0 : Int) < 248 ∧ (0 : Int) ≤ 247 ∧ (247 : Int) < 248 := by
  decide

/-- A band above the window, one below it, and one that ends where it starts. -/
theorem witness_EmptyBandHasNoEffect :
    min 8 (clean1.cfg.visEnd : Int) ≤ max 0 (clean1.cfg.visTop : Int) ∧
      min 248 (clean1.cfg.visEnd : Int) ≤ max 10 (clean1.cfg.visTop : Int) ∧
      min 9 (clean1.cfg.visEnd : Int) ≤ max 9 (clean1.cfg.visTop : Int) := by decide

/-- A state that is neither the reset state nor blank: bytes in each memory, a cached tile, a scrolled row, a pixel, a
moved bank and trigger line. -/
def busy (c : Cfg) : State :=
  { clean c with
    vram := [(0x0004, 0x07), (0xFFFF, 0x80)]
    sprLive := [(0, 0x68), (0x7FF, 1)]
    sprBuf := [(7, 1)]
    mctl := #v[0x46, 0, 0, 0, 0x10, 0, 0xE4, 0]
    lc := { pf1 := ⟨0x8000, true, true, true⟩, pf2 := ⟨0, false, true, false⟩, pf3 := ⟨0, false, false, false⟩ }
    rasterIrqLine := 100
    cache := { (PerLayer.const [] : PerLayer (Cells TileEntry)) with pf2n := [(1, ⟨7, 0, .normal, false, false⟩)] }
    scroll := (PerLayer.const ResolvedScroll.reset).set .pf1w ⟨.all512, [(0, 0x100), (511, 0x0FF)], 5⟩
    fb := [(fbKey 136 80, ⟨2, 3, 1⟩), (fbKey 511 511, ⟨1, 0, 0⟩)] }

theorem busy_canonical (c : Cfg) : (busy c).Canonical where
  vram := rfl
  sprLive := rfl
  sprBuf := rfl
  cache := by intro L; cases L <;> rfl
  scroll := by intro L; cases L <;> rfl
  fb := rfl

theorem busy_pixels (c : Cfg) : (busy c).PixelsLegal := by
  intro y x
  have h : ∀ k, let p := Cells.get Pixel.bg [(fbKey 136 80, ⟨2, 3, 1⟩), (fbKey 511 511, ⟨1, 0, 0⟩)] k
      p.kind ≠ 3 ∧ (p.kind = 0 → p = Pixel.bg) := by
    intro k
    simp only [Cells.get]
    split
    · decide
    · split
      · decide
      · decide
  exact h (fbKey y x)

theorem busy_inv (chip : SpriteChip) (raster speedup : Bool) : (busy (cfgOf chip raster speedup)).Inv where
  cfg := rfl
  canonical := busy_canonical _
  lc := by
    intro p
    unfold State.LcLatched
    cases p <;> cases chip <;> cases raster <;> cases speedup <;> decide +kernel
  raster := by
    show (100 : Int) = ((0 : Byte).toNat : Int) * 256 + ((0xE4 : Byte).toNat : Int) - 128
    decide
  pixels := busy_pixels _

/-- A band on line 8 and one up to line 9; the row table in force, and not; the high layer on a machine that has it. -/
theorem witness_RefreshResolvesScroll :
    (busy (cfgOf .one true true)).Canonical ∧
      max 8 ((cfgOf .one true true).visTop : Int) < min 9 ((cfgOf .one true true).visEnd : Int) ∧
      (Layer.pf1h = .pf1h → (cfgOf .one true true).speedup = true) ∧
      (Layer.pf3w = .pf1h → (cfgOf .one true true).speedup = true) ∧
      ((busy (cfgOf .one true true)).layerCtl .pf1).rowscroll = true ∧
      ((busy (cfgOf .one true true)).layerCtl .pf3).rowscroll = false :=
  ⟨busy_canonical _, by decide, by decide, by decide, by decide, by decide⟩

/-- A layer that exists, with a dirty tile and a clean one, and a layer that does not exist. -/
theorem witness_RefreshDecodesDirtyTiles :
    (busy (cfgOf .one true false)).Canonical ∧
      max 0 ((cfgOf .one true false).visTop : Int) < min 248 ((cfgOf .one true false).visEnd : Int) ∧
      ¬(Layer.pf1w = .pf1h ∧ (cfgOf .one true false).speedup = false) ∧
      (Layer.pf1h = .pf1h ∧ (cfgOf .one true false).speedup = false) ∧
      8191 < mapWidth .pf1w / 8 * 64 ∧ 4095 < mapWidth .pf1h / 8 * 64 ∧ split.isDirty .pf1n 1098 = true ∧
      split.isDirty .pf1n 4095 = false :=
  ⟨busy_canonical _, by decide, by decide, by decide, by decide, by decide, by decide +kernel,
    by decide +kernel⟩

/-- The first and the last position of the clip rectangle. -/
theorem witness_RefreshShowsTopmostPixel :
    split.cfg.wf = true ∧ fbWf split.fb = true ∧
      (max 0 (split.cfg.visTop : Int) + 128 ≤ (136 : Nat) ∧ ((136 : Nat) : Int) < min 248 (split.cfg.visEnd : Int) + 128 ∧
        split.cfg.visLeft ≤ 80 ∧ 80 ≤ split.cfg.visRight) ∧
      (max 0 (split.cfg.visTop : Int) + 128 ≤ (137 : Nat) ∧ ((137 : Nat) : Int) < min 248 (split.cfg.visEnd : Int) + 128 ∧
        split.cfg.visLeft ≤ 84 ∧ 84 ≤ split.cfg.visRight) := by decide +kernel

/-- The four positions just outside the clip rectangle. -/
theorem witness_RefreshWritesOnlyItsBand :
    split.cfg.wf = true ∧ fbWf split.fb = true ∧
      [(135, 80), (138, 84), (136, 79), (137, 85), (0, 511)].all (fun (yx : Nat × Nat) =>
        decide (yx.2 < 512) &&
          !(decide (max 0 (split.cfg.visTop : Int) + 128 ≤ (yx.1 : Int)) &&
            decide ((yx.1 : Int) < min 248 (split.cfg.visEnd : Int) + 128) &&
            decide (split.cfg.visLeft ≤ yx.2) && decide (yx.2 ≤ split.cfg.visRight))) = true := by decide +kernel

theorem witness_StepKeepsInvariant :
    ∃ t, (busy (cfgOf .one true false)).Inv ∧ step (busy (cfgOf .one true false)) = .next t :=
  ⟨_, busy_inv .one true false, rfl⟩

/-- A state with a command at its port that meets the invariant. -/
theorem witness_StepKeepsInvariant_command :
    ∃ t, (presented (busy (cfgOf .zero false true)) 0x10001685).Inv ∧
      step (presented (busy (cfgOf .zero false true)) 0x10001685) = .next t :=
  have h := busy_inv .zero false true
  have k := h.canonical
  ⟨_, ⟨h.cfg, ⟨k.vram, k.sprLive, k.sprBuf, k.cache, k.scroll, k.fb⟩, h.lc, h.raster, h.pixels⟩, rfl⟩

/-- A state of clean tiles over an empty VRAM: every cached entry is the decode of four zero bytes. -/
theorem clean_cachesCurrent (c : Cfg) : (clean c).CachesCurrent := by
  intro L _ t _ _
  have h : ∀ v, TileEntry.zero = tileEntryOfBytes v 0 0 0 0 := by intro v; cases v <;> decide
  cases L <;> exact h _

theorem clean_inv (chip : SpriteChip) (raster speedup : Bool) : (clean (cfgOf chip raster speedup)).Inv where
  cfg := rfl
  canonical := ⟨rfl, rfl, rfl, by intro L; cases L <;> rfl, by intro L; cases L <;> rfl, rfl⟩
  lc := by
    intro p
    unfold State.LcLatched
    cases p <;> cases chip <;> cases raster <;> cases speedup <;> decide +kernel
  raster := by
    show (-128 : Int) = ((0 : Byte).toNat : Int) * 256 + ((0 : Byte).toNat : Int) - 128
    decide
  pixels := fun _ _ => ⟨by show Pixel.bg.kind ≠ 3; decide, fun _ => rfl⟩

/-- The premises hold of a state in which coherent layers have clean tiles. -/
theorem witness_StepKeepsCachesCurrent :
    ∃ t, clean1.Inv ∧ clean1.CachesCurrent ∧ step clean1 = .next t ∧ clean1.coherentLayer .pf1w = true ∧
      clean1.isDirty .pf1w 8191 = false :=
  ⟨_, clean_inv .one true false, clean_cachesCurrent _, rfl, by decide +kernel, by decide +kernel⟩

/-- The first tile of a narrow layer and the last of a wide one, and the high layer under the speed-up flag. -/
theorem witness_RefreshDrawsFromCurrentVram :
    cleanSpeedup.Inv ∧ cleanSpeedup.CachesCurrent ∧
      max 0 (cleanSpeedup.cfg.visTop : Int) < min 248 (cleanSpeedup.cfg.visEnd : Int) ∧
      cleanSpeedup.coherentLayer .pf1n = true ∧ 0 < Layer.pf1n.tiles ∧ cleanSpeedup.coherentLayer .pf3w = true ∧
      8191 < Layer.pf3w.tiles ∧ cleanSpeedup.coherentLayer .pf1h = true ∧ 4095 < Layer.pf1h.tiles :=
  ⟨clean_inv .one true true, clean_cachesCurrent _, by decide, by decide +kernel, by decide, by decide +kernel, by decide,
    by decide +kernel, by decide⟩

theorem witness_StepKeepsConfiguration :
    ∃ t u, step (presented split 0x9000F800) = .next t ∧ step (pinThen split 0) = .next u := ⟨_, _, rfl, rfl⟩

/-- A command that writes, and one that writes none of the named components. -/
theorem witness_OnlyNamedWritersChangeEachComponent :
    ∃ t u, exec (.scanTick 248) split = .next t ∧ exec (.vramRd 0) split = .next u ∧
      (isVramWr (.vramRd 0) = false ∧ isSprWr (.vramRd 0) = false ∧ isSprctlWr (.vramRd 0) = false ∧
        isSprbufTrig (.vramRd 0) = false ∧ isPfctlWr (.vramRd 0) = false ∧ isMctlWr (.vramRd 0) = false ∧
        isScanTick (.vramRd 0) = false ∧ isFrameStart (.vramRd 0) = false ∧ responds (.scanTick 248) = false) :=
  ⟨_, _, rfl, rfl, by decide⟩

/-- The four positions just outside the window, and one far from it. -/
theorem witness_PixelsOutsideWindowNeverChange :
    ∃ t, clean1.Inv ∧ exec (.scanTick 248) clean1 = .next t ∧
      [(135, 80), (138, 84), (136, 79), (137, 85), (511, 511)].all (fun (yx : Nat × Nat) =>
        decide (yx.2 < 512) && !(decide (clean1.cfg.visTop + 128 ≤ yx.1) && decide (yx.1 < clean1.cfg.visEnd + 128) &&
          decide (clean1.cfg.visLeft ≤ yx.2) && decide (yx.2 ≤ clean1.cfg.visRight))) = true :=
  ⟨_, clean_inv .one true false, rfl, by decide⟩

/-- One step that raises a request, and one that responds. -/
theorem witness_StepOutputIsBounded :
    ∃ t u, step (presented at100 0x90006400) = .next t ∧ step (presented clean1 0xA0000000) = .next u ∧
      responds (decode 0xA0000000) = true := ⟨_, _, rfl, rfl, by decide⟩

theorem witness_RegisterAndMemoryWritesAreIdempotent :
    ∃ a b c d, clean1.Inv ∧ exec (.vramWr 0xFFFF 1) clean1 = .next a ∧ exec (.sprWr 0x7FF 1) clean1 = .next b ∧
      exec (.pfctlWr 2 7 1) clean1 = .next c ∧ exec (.mctlWr 0 0x16) clean1 = .next d ∧ isVramWr (.vramWr 0xFFFF 1) = true ∧
      isSprWr (.sprWr 0x7FF 1) = true ∧ isPfctlWr (.pfctlWr 2 7 1) = true ∧ isMctlWr (.mctlWr 0 0x16) = true :=
  ⟨_, _, _, _, clean_inv .one true false, rfl, rfl, rfl, rfl, rfl, rfl, rfl, rfl⟩

theorem witness_HighLayerIdleWithoutSpeedup :
    ∃ t u, clean1.cfg.speedup = false ∧ exec (.vramWr 0xC000 1) clean1 = .next t ∧
      exec (.scanTick 248) clean1 = .next u := ⟨_, _, rfl, rfl, rfl⟩

end Sys2Proof.Tests
end

section
/-! PROOF. What a step takes from the command port and runs (`00_scope.md` R15, `10_state.md` R24), and that no step
changes the configuration (`00_scope.md` R7): the frame of `cfg` operation by operation, then command by command. -/

namespace Sys2Proof

/-- The opcode of the packed word selects the constructor, and the fields give the operands back. -/
@[simp] theorem decode_encode (i : Instr) : decode (encode i) = i := by
  cases i <;> simp [encode, decode]

namespace Machine

/-! ## What a step takes from the port -/

theorem step_of_port_nil {s : State} (h : s.port = []) : step s = .next s := by
  rw [step, h]

theorem step_of_port_command {s : State} {w : CmdWord} {rest : List PortEvent} (h : s.port = .command w :: rest) :
    step s = exec (decode w) (s.beginCommand rest) := by
  rw [step, h]

theorem step_of_port_reset {s : State} {rest : List PortEvent} (h : s.port = .reset :: rest) :
    step s = .next (resetPin { s with port := rest }) := by
  rw [step, h]

/-- Everything a step can do: wait, run the command at the head of the port, or reset. -/
theorem step_next_cases {s t : State} (h : step s = .next t) :
    (s.port = [] ∧ t = s) ∨
    (∃ w rest, s.port = .command w :: rest ∧ exec (decode w) (s.beginCommand rest) = .next t) ∨
    (∃ rest, s.port = .reset :: rest ∧ t = resetPin { s with port := rest }) := by
  cases hport : s.port with
  | nil =>
    rw [step_of_port_nil hport] at h
    exact .inl ⟨rfl, (Host.Outcome.next.inj h).symm⟩
  | cons e rest =>
    cases e with
    | command w =>
      rw [step_of_port_command hport] at h
      exact .inr (.inl ⟨w, rest, rfl, h⟩)
    | reset =>
      rw [step_of_port_reset hport] at h
      exact .inr (.inr ⟨rest, rfl, (Host.Outcome.next.inj h).symm⟩)

/-- A word presented at the port is the one the next step runs; what waited there still waits after it. -/
theorem step_present (s : State) (w : CmdWord) :
    step (s.present w) = exec (decode w) { s with out := Output.none } :=
  step_of_port_command (s.present_port w)

/-- The 32 bits of a command word are presented as that word. -/
theorem State.withFetchWord_toNat (s : State) (w : CmdWord) : s.withFetchWord 32 w.toNat = s.present w := by
  rw [State.withFetchWord, Nat.mod_eq_of_lt w.isLt, BitVec.ofNat_toNat, BitVec.setWidth_eq]

/-! ## The operations keep the configuration -/

@[simp] theorem markDirty_cfg (offset : Half) (s : State) : (markDirty offset s).cfg = s.cfg := by
  rw [markDirty_frame]

@[simp] theorem spriteSwap_cfg (clear : Bool) (s : State) : (spriteSwap clear s).cfg = s.cfg := by
  rw [spriteSwap_eq]

@[simp] theorem layerSelect_cfg (p : Playfield) (value : Byte) (s : State) : (layerSelect p value s).cfg = s.cfg := by
  rw [layerSelect_frame]

@[simp] theorem updateRasterLine_cfg (s : State) : (updateRasterLine s).cfg = s.cfg := by
  rw [updateRasterLine_eq]

@[simp] theorem masterEffect_cfg (i : Fin 8) (value : Byte) (s : State) : (masterEffect i value s).cfg = s.cfg := by
  unfold masterEffect
  split <;> simp

@[simp] theorem partialRefresh_cfg (startLine endLine : Int) (s : State) :
    (partialRefresh startLine endLine s).cfg = s.cfg := by
  obtain ⟨-, hempty⟩ | ⟨-, hdrawn⟩ := partialRefresh_cases startLine endLine s
  · rw [hempty]
  · rw [hdrawn, refreshBand_eq]

@[simp] theorem tickBranch_cfg (line : Half) (s : State) : (tickBranch line s).cfg = s.cfg := by
  obtain ⟨-, h⟩ | ⟨-, -, h⟩ | ⟨-, -, h⟩ | ⟨-, -, -, h⟩ | ⟨-, -, -, -, h⟩ := tickBranch_cases line s
  · rw [h]; simp [tickRaster]
  · rw [h]; simp [tickVblank]
  · rw [h]; rfl
  · rw [h, State.raiseIrq_cfg]
  · rw [h]

@[simp] theorem resetPin_cfg (s : State) : (resetPin s).cfg = s.cfg := rfl

/-! ## The commands keep the configuration -/

/-- Every command answers a next state, and its configuration is the one before. -/
theorem exec_next_cfg (i : Instr) (s : State) : ∃ t, exec i s = .next t ∧ t.cfg = s.cfg := by
  cases i with
  | nop => exact ⟨_, rfl, rfl⟩
  | vramWr offset value => exact ⟨_, rfl, by simp⟩
  | vramRd offset => exact ⟨_, rfl, by simp⟩
  | sprWr offset value => exact ⟨_, rfl, by split <;> simp⟩
  | sprRd offset => exact ⟨_, rfl, by simp⟩
  | pfctlWr layer index value => exact ⟨_, rfl, by split <;> simp⟩
  | mctlWr index value => exact ⟨_, rfl, by split <;> simp⟩
  | sprctlWr offset value =>
    refine ⟨_, rfl, ?_⟩
    cases reg9OfOffset offset with
    | some j => dsimp only; split <;> simp
    | none => rfl
  | sprbufTrig offset value => exact ⟨_, rfl, by split <;> simp⟩
  | scanTick line => exact ⟨_, rfl, tickBranch_cfg line (tickRecord line s)⟩
  | statusRd => exact ⟨_, rfl, by simp⟩
  | frameStart => exact ⟨_, rfl, rfl⟩
  | reservedC => exact ⟨_, rfl, rfl⟩
  | reservedD => exact ⟨_, rfl, rfl⟩
  | reservedE => exact ⟨_, rfl, rfl⟩
  | reservedF => exact ⟨_, rfl, rfl⟩

theorem exec_keeps_cfg {i : Instr} {s t : State} (h : exec i s = .next t) : t.cfg = s.cfg := by
  obtain ⟨u, hu, hcfg⟩ := exec_next_cfg i s
  rw [h] at hu
  rw [Host.Outcome.next.inj hu, hcfg]

/-! ## The obligations of `00_scope.md` -/

/-- Settles O6: the word is presented whole, and the decoder gives its command back. -/
theorem fetchWordRunsItsCommand : Obligations.FetchWordRunsItsCommand := by
  intro s i
  rw [State.withFetchWord_toNat, step_present, decode_encode]

/-- Settles O54, by what a step can do: wait, run a command, or reset. -/
theorem stepKeepsConfiguration : Obligations.StepKeepsConfiguration := by
  intro s t h
  obtain ⟨-, rfl⟩ | ⟨w, rest, -, hexec⟩ | ⟨rest, -, rfl⟩ := step_next_cases h
  · rfl
  · rw [exec_keeps_cfg hexec, State.beginCommand_cfg]
  · rw [resetPin_cfg]

/-- Settles O5: the command case of `step`. -/
theorem stepRunsPresentedCommand : Obligations.StepRunsPresentedCommand := by
  intro s w rest h
  exact step_of_port_command h

end Machine

end Sys2Proof
end

section
/-! PROOF. What a command writes (`10_state.md` R20): the frame of each shared operation, then of every command, and from
it who writes which component, that no pixel outside the visible window changes (R35, R46 e), and that the high layer
stands still without the speed-up flag (R46 d). -/

namespace Sys2Proof.Machine

/-! ## The frames of the shared operations -/

/-- The effects of a master control write, by the register written (`43_master_control.md` R160). -/
theorem masterEffect_cases (i : Fin 8) (value : Byte) (s : State) :
    (∃ p, i = selectReg p ∧ masterEffect i value s = layerSelect p value s) ∨
    ((i = 6 ∨ i = 7) ∧ masterEffect i value s = updateRasterLine s) ∨
    ((∀ p, i ≠ selectReg p) ∧ i ≠ 6 ∧ i ≠ 7 ∧ masterEffect i value s = s) := by
  have hselect : ∀ j : Fin 8, j = 1 ∨ j = 3 ∨ j = 5 → ∀ p, j ≠ selectReg p := by
    rintro j (rfl | rfl | rfl) p <;> cases p <;> decide
  match i with
  | 0 => exact .inl ⟨.pf1, rfl, rfl⟩
  | 1 => exact .inr (.inr ⟨hselect 1 (by decide), by decide, by decide, rfl⟩)
  | 2 => exact .inl ⟨.pf2, rfl, rfl⟩
  | 3 => exact .inr (.inr ⟨hselect 3 (by decide), by decide, by decide, rfl⟩)
  | 4 => exact .inl ⟨.pf3, rfl, rfl⟩
  | 5 => exact .inr (.inr ⟨hselect 5 (by decide), by decide, by decide, rfl⟩)
  | 6 => exact .inr (.inl ⟨.inl rfl, rfl⟩)
  | 7 => exact .inr (.inl ⟨.inr rfl, rfl⟩)

/-- A master control write latches layer controls and the raster line, marks tiles and warns; it writes nothing else. -/
theorem masterEffect_frame (i : Fin 8) (value : Byte) (s : State) :
    masterEffect i value s = { s with
      lc := (masterEffect i value s).lc
      rasterIrqLine := (masterEffect i value s).rasterIrqLine
      dirty := (masterEffect i value s).dirty
      warnRasterCfg := (masterEffect i value s).warnRasterCfg
      out := { s.out with warn := (masterEffect i value s).out.warn } } := by
  obtain ⟨p, -, h⟩ | ⟨-, h⟩ | ⟨-, -, -, h⟩ := masterEffect_cases i value s
  · rw [h, layerSelect_frame]
  · rw [h, updateRasterLine_eq]
  · rw [h]

/-- A refresh writes the resolved scroll, the caches with their dirty bits, the framebuffer and `rs`
(`45_partial_refresh.md` R190). -/
theorem partialRefresh_frame (startLine endLine : Int) (s : State) :
    partialRefresh startLine endLine s = { s with
      scroll := (partialRefresh startLine endLine s).scroll
      cache := (partialRefresh startLine endLine s).cache
      dirty := (partialRefresh startLine endLine s).dirty
      fb := (partialRefresh startLine endLine s).fb
      rs := (partialRefresh startLine endLine s).rs } := by
  obtain ⟨-, h⟩ | ⟨-, h⟩ := partialRefresh_cases startLine endLine s
  · rw [h]
  · rw [h, refreshBand_eq]

/-- A refresh neither reads nor keeps what a tick writes around it: `rs` and the requests of the output. -/
theorem partialRefresh_within_tick (a b : Int) (r r' : RasterState) (irqs : List IrqSource) (s : State) :
    { partialRefresh a b { s with rs := r } with
        rs := r', out := { (partialRefresh a b { s with rs := r }).out with irqs := irqs } } =
      { partialRefresh a b s with rs := r', out := { s.out with irqs := irqs } } := by
  have hout : (partialRefresh a b s).out = s.out := congrArg (·.out) (partialRefresh_frame a b s)
  exact (congrArg (fun u : State => { u with rs := r', out := { u.out with irqs := irqs } })
    (partialRefresh_rs a b s r)).trans
    (congrArg (fun o : Output => { partialRefresh a b s with rs := r', out := { o with irqs := irqs } }) hout)

/-- A tick refreshes one band or none; beside that it writes `rs` and raises requests (`47_raster_fsm.md` R250). -/
theorem exec_scanTick_cases {line : Half} {s t : State} (h : exec (.scanTick line) s = .next t) :
    ∃ rs irqs, t = { s with rs := rs, out := { s.out with irqs := irqs } } ∨
      ∃ a b, t = { partialRefresh a b s with rs := rs, out := { s.out with irqs := irqs } } := by
  have ht : t = tickBranch line (tickRecord line s) := (Host.Outcome.next.inj h).symm
  obtain ⟨-, hb⟩ | ⟨-, -, hb⟩ | ⟨-, -, hb⟩ | ⟨-, -, -, hb⟩ | ⟨-, -, -, -, hb⟩ :=
    tickBranch_cases line (tickRecord line s)
  · have hdrawn := ht.trans (hb.trans (partialRefresh_within_tick ..))
    exact ⟨_, _, .inr ⟨_, _, hdrawn⟩⟩
  · have hdrawn := ht.trans (hb.trans (partialRefresh_within_tick ..))
    exact ⟨_, _, .inr ⟨_, _, hdrawn⟩⟩
  · exact ⟨_, _, .inl (ht.trans hb)⟩
  · exact ⟨_, _, .inl (ht.trans hb)⟩
  · exact ⟨_, _, .inl (ht.trans hb)⟩

/-! ## The frame of every command -/

/-- From `s` to `t` only components changed that the command may write (`10_state.md` R20, `60_exceptions.md` R276,
`30_encoding.md` R97). -/
def CommandFrame (s t : State) : Instr → Prop
  | .vramWr _ _ => ∃ vram dirty, t = { s with vram := vram, dirty := dirty }
  | .vramRd _ => ∃ answer, t = { s with out := { s.out with response := answer } }
  | .sprWr _ _ => ∃ live, t = { s with sprLive := live }
  | .sprRd _ => ∃ answer, t = { s with out := { s.out with response := answer } }
  | .pfctlWr _ _ _ => ∃ regs, t = { s with pfctl := regs }
  | .mctlWr _ _ => ∃ regs lc line dirty sticky pulse,
      t = { s with mctl := regs, lc := lc, rasterIrqLine := line, dirty := dirty, warnRasterCfg := sticky,
                   out := { s.out with warn := pulse } }
  | .sprctlWr _ _ => ∃ regs live buf irqs,
      t = { s with sprctl := regs, sprLive := live, sprBuf := buf, out := { s.out with irqs := irqs } }
  | .sprbufTrig _ _ => ∃ buf irqs, t = { s with sprBuf := buf, out := { s.out with irqs := irqs } }
  | .scanTick _ => ∃ scroll cache dirty fb rs irqs,
      t = { s with scroll := scroll, cache := cache, dirty := dirty, fb := fb, rs := rs,
                   out := { s.out with irqs := irqs } }
  | .statusRd => ∃ answer, t = { s with out := { s.out with response := answer } }
  | .frameStart => ∃ rs, t = { s with rs := rs }
  | .nop | .reservedC | .reservedD | .reservedE | .reservedF => t = s

/-- Every command stays inside its frame. -/
theorem exec_frame {i : Instr} {s t : State} (h : exec i s = .next t) : CommandFrame s t i := by
  cases i with
  | nop | reservedC | reservedD | reservedE | reservedF => exact (Host.Outcome.next.inj h).symm
  | vramWr offset value => exact ⟨_, _, (Host.Outcome.next.inj h).symm.trans (markDirty_frame ..)⟩
  | vramRd | sprRd | statusRd | frameStart => exact ⟨_, (Host.Outcome.next.inj h).symm⟩
  | sprWr offset value =>
    obtain rfl := Host.Outcome.next.inj h
    split
    · exact ⟨_, rfl⟩
    · exact ⟨_, rfl⟩
  | pfctlWr layer index value =>
    obtain rfl := Host.Outcome.next.inj h
    cases playfieldOfSel layer with
    | none => exact ⟨_, rfl⟩
    | some p =>
      cases reg8OfIndex index with
      | none => exact ⟨_, rfl⟩
      | some j => exact ⟨_, rfl⟩
  | mctlWr index value =>
    obtain rfl := Host.Outcome.next.inj h
    cases reg8OfIndex index with
    | none => exact ⟨_, _, _, _, _, _, rfl⟩
    | some j => exact ⟨_, _, _, _, _, _, masterEffect_frame ..⟩
  | sprctlWr offset value =>
    obtain rfl := Host.Outcome.next.inj h
    cases reg9OfOffset offset with
    | none => exact ⟨_, _, _, _, rfl⟩
    | some j =>
      dsimp only
      split
      · exact ⟨_, _, _, _, spriteSwap_eq ..⟩
      · exact ⟨_, _, _, _, rfl⟩
  | sprbufTrig offset value =>
    obtain rfl := Host.Outcome.next.inj h
    split
    · exact ⟨_, _, rfl⟩
    · exact ⟨_, _, rfl⟩
  | scanTick line =>
    obtain ⟨rs, irqs, rfl | ⟨a, b, rfl⟩⟩ := exec_scanTick_cases h
    · exact ⟨_, _, _, _, _, _, rfl⟩
    · rw [partialRefresh_frame]
      exact ⟨_, _, _, _, _, _, rfl⟩

/-! ## The class of each command (`10_state.md` R20) -/

theorem isVramWr_vramWr (offset : Half) (value : Byte) : isVramWr (.vramWr offset value) = true := rfl

theorem isSprWr_sprWr (offset : Half) (value : Byte) : isSprWr (.sprWr offset value) = true := rfl

theorem isPfctlWr_pfctlWr (layer : BitVec 4) (index : Half) (value : Byte) :
    isPfctlWr (.pfctlWr layer index value) = true := rfl

theorem isMctlWr_mctlWr (index : Half) (value : Byte) : isMctlWr (.mctlWr index value) = true := rfl

theorem isSprctlWr_sprctlWr (offset : Half) (value : Byte) : isSprctlWr (.sprctlWr offset value) = true := rfl

theorem isSprbufTrig_sprbufTrig (offset : Half) (value : Byte) : isSprbufTrig (.sprbufTrig offset value) = true := rfl

theorem isScanTick_scanTick (line : Half) : isScanTick (.scanTick line) = true := rfl

theorem isFrameStart_frameStart : isFrameStart .frameStart = true := rfl

theorem responds_vramRd (offset : Half) : responds (.vramRd offset) = true := rfl

theorem responds_sprRd (offset : Half) : responds (.sprRd offset) = true := rfl

theorem responds_statusRd : responds .statusRd = true := rfl

/-- Settles O55, frame by frame: a component outside the frame of a command is as it was. -/
theorem onlyNamedWritersChangeEachComponent : Obligations.OnlyNamedWritersChangeEachComponent := by
  intro i s t h
  cases i with
  | nop | reservedC | reservedD | reservedE | reservedF =>
    obtain rfl : t = s := exec_frame h
    simp
  | vramWr =>
    obtain ⟨vram, dirty, rfl⟩ := exec_frame h
    simp [isVramWr_vramWr]
  | vramRd | sprRd | statusRd =>
    obtain ⟨answer, rfl⟩ := exec_frame h
    simp [responds_vramRd, responds_sprRd, responds_statusRd]
  | sprWr =>
    obtain ⟨live, rfl⟩ := exec_frame h
    simp [isSprWr_sprWr]
  | pfctlWr =>
    obtain ⟨regs, rfl⟩ := exec_frame h
    simp [isPfctlWr_pfctlWr]
  | mctlWr =>
    obtain ⟨regs, lc, line, dirty, sticky, pulse, rfl⟩ := exec_frame h
    simp [isMctlWr_mctlWr]
  | sprctlWr =>
    obtain ⟨regs, live, buf, irqs, rfl⟩ := exec_frame h
    simp [isSprctlWr_sprctlWr]
  | sprbufTrig =>
    obtain ⟨buf, irqs, rfl⟩ := exec_frame h
    simp [isSprbufTrig_sprbufTrig]
  | scanTick =>
    obtain ⟨scroll, cache, dirty, fb, rs, irqs, rfl⟩ := exec_frame h
    simp [isScanTick_scanTick]
  | frameStart =>
    obtain ⟨rs, rfl⟩ := exec_frame h
    simp [isFrameStart_frameStart]

theorem eq_scanTick_of_isScanTick {i : Instr} (hi : isScanTick i = true) : ∃ line, i = .scanTick line := by
  cases i with
  | scanTick line => exact ⟨line, rfl⟩
  | _ => cases hi

/-- A command that is no tick draws nothing. -/
theorem exec_keeps_drawn {i : Instr} {s t : State} (hi : isScanTick i = false) (h : exec i s = .next t) :
    t.cache = s.cache ∧ t.scroll = s.scroll ∧ t.fb = s.fb := by
  obtain ⟨-, -, -, -, -, -, -, -, -, hdrawn, -⟩ := onlyNamedWritersChangeEachComponent i s t h
  exact hdrawn hi

/-- A command that is no `VRAM_WR`, `MCTL_WR` or tick writes no dirty bit. -/
theorem exec_keeps_dirty {i : Instr} {s t : State} (hv : isVramWr i = false) (hm : isMctlWr i = false)
    (hi : isScanTick i = false) (h : exec i s = .next t) : t.dirty = s.dirty := by
  obtain ⟨-, -, -, -, -, -, -, -, -, -, hdirty, -⟩ := onlyNamedWritersChangeEachComponent i s t h
  exact hdirty hv hm hi

end Sys2Proof.Machine
end

section
/-! PROOF. The invariant of reachable states (`10_state.md` R28, R29, R46) and the pixels and layers that stay as they
are. The composite is a sequence of paints, so what every paint keeps the composite keeps; the rest is one lemma per
component of the invariant. -/

namespace Sys2Proof.Machine

/-! ## What every paint keeps, the composite keeps -/

section

variable {P : Cells Pixel → Prop} {s : State} {clip : Clip}

theorem foldl_blitCell_keeps (hblit : ∀ b fb, P fb → P (blitCell s.cfg clip fb b)) (bs : List Blit)
    {fb : Cells Pixel} (h : P fb) : P (bs.foldl (blitCell s.cfg clip) fb) := by
  induction bs generalizing fb with
  | nil => exact h
  | cons b bs ih => exact ih (hblit b fb h)

/-- The passes of `45_partial_refresh.md` R199 write the framebuffer by layer paints, the `BG` fill and cell blits. -/
theorem compositeFb_keeps (hlayer : ∀ p pass fb, P fb → P (paint clip (layerPixel s p pass) fb))
    (hfill : ∀ fb, P fb → P (paint clip (fun _ _ => some Pixel.bg) fb))
    (hblit : ∀ b fb, P fb → P (blitCell s.cfg clip fb b)) {fb : Cells Pixel} (h : P fb) :
    P (compositeFb s clip fb) := by
  have hbottom : ∀ {fb}, P fb → P (drawBottom s clip fb) := by
    intro fb h
    unfold drawBottom
    split
    · exact hlayer _ _ _ h
    · exact hfill _ h
  have hpass : ∀ {pass p fb}, P fb → P (drawIfEnabled s clip pass p fb) := by
    intro pass p fb h
    unfold drawIfEnabled
    split
    · exact hlayer _ _ _ h
    · exact h
  have hsprites : ∀ {above fb}, P fb → P (drawSprites s clip above fb) := foldl_blitCell_keeps hblit _
  exact hsprites (hpass (hpass (hpass (hsprites (hpass (hpass (hbottom h)))))))

end

/-! ## Pixels outside the visible window -/

/-- The composite writes no pixel outside its clip rectangle. -/
theorem fbPixel_compositeFb_outside (s : State) {clip : Clip} (hc : clip.Narrow) (hr : clip.rowHi ≤ 512)
    {fb : Cells Pixel} (hfb : fbWf fb = true) {y x : Nat} (hx : x < 512) (hout : ¬ clip.contains x y = true) :
    fbPixel (compositeFb s clip fb) y x = fbPixel fb y x := by
  have hkeeps : fbWf (compositeFb s clip fb) = true ∧ fbPixel (compositeFb s clip fb) y x = fbPixel fb y x := by
    refine compositeFb_keeps (P := fun g => fbWf g = true ∧ fbPixel g y x = fbPixel fb y x) ?_ ?_ ?_ ⟨hfb, rfl⟩
    · rintro p pass g ⟨hg, hpx⟩
      exact ⟨fbWf_paint hc hr hg _, by rw [fbPixel_paint hc (fbWf_rising hg) _ hx, if_neg hout, hpx]⟩
    · rintro g ⟨hg, hpx⟩
      exact ⟨fbWf_paint hc hr hg _, by rw [fbPixel_paint hc (fbWf_rising hg) _ hx, if_neg hout, hpx]⟩
    · rintro b g ⟨hg, hpx⟩
      exact ⟨fbWf_blitCell hc hr hg b, by rw [fbPixel_blitCell hc (fbWf_rising hg) b hx, if_neg hout, hpx]⟩
  exact hkeeps.2

theorem visibleWindow_iff (c : Cfg) (y x : Nat) :
    visibleWindow c y x ↔ c.visTop + 128 ≤ y ∧ y ≤ c.visEnd + 127 ∧ c.visLeft ≤ x ∧ x ≤ c.visRight := Iff.rfl

/-- No refresh writes a pixel outside the visible window (`45_partial_refresh.md` R213). -/
theorem pixel_partialRefresh_outside {s : State} (hcfg : s.cfg.wf = true) (hfb : fbWf s.fb = true) (a b : Int)
    {y x : Nat} (hx : x < 512) (hout : ¬ visibleWindow s.cfg y x) : (partialRefresh a b s).pixel y x = s.pixel y x := by
  obtain ⟨-, h⟩ | ⟨hband, h⟩ := partialRefresh_cases a b s
  · rw [h]
  · rw [h, refreshBand_eq]
    refine fbPixel_compositeFb_outside _ (bandClip_narrow hcfg _ _) (bandClip_rows hcfg _ (by omega)) hfb hx ?_
    rw [bandClip_contains (by omega)]
    rw [visibleWindow_iff] at hout
    omega

/-- Settles O56: only a tick writes the framebuffer, and a tick only by a refresh. -/
theorem pixelsOutsideWindowNeverChange : Obligations.PixelsOutsideWindowNeverChange := by
  intro i s t y x hinv h hx hout
  cases hi : isScanTick i with
  | false =>
    obtain ⟨-, -, hfb⟩ := exec_keeps_drawn hi h
    exact congrArg (fbPixel · y x) hfb
  | true =>
    obtain ⟨line, rfl⟩ := eq_scanTick_of_isScanTick hi
    obtain ⟨rs, irqs, rfl | ⟨a, b, rfl⟩⟩ := exec_scanTick_cases h
    · rfl
    · exact pixel_partialRefresh_outside hinv.cfg hinv.canonical.fb a b hx hout

/-! ## The high layer without the speed-up flag -/

theorem DirtyBits.pf1h_eq_of_get {d e : DirtyBits} (h : ∀ k, d.get .pf1h k = e.get .pf1h k) : d.pf1h = e.pf1h :=
  BitVec.eq_of_getLsbD_eq fun k _ => h k

/-- Without the speed-up flag no VRAM write marks the high layer (`41_vram_access.md` R138). -/
theorem dirty_pf1h_markDirty {s : State} (hs : s.cfg.speedup = false) (offset : Half) :
    (markDirty offset s).dirty.pf1h = s.dirty.pf1h := by
  refine DirtyBits.pf1h_eq_of_get fun k => ?_
  have hone : ∀ p (u : State), u.cfg.speedup = false →
      (markPlayfield offset p u).isDirty .pf1h k = u.isDirty .pf1h k := by
    intro p u hu
    rw [isDirty_markPlayfield, hu]
    cases p <;> simp [Playfield.narrow, Playfield.wide]
  show (markDirty offset s).isDirty .pf1h k = s.isDirty .pf1h k
  unfold markDirty
  rw [hone _ _ (by simpa using hs), hone _ _ (by simpa using hs), hone _ _ hs]

/-- No layer select marks the high layer (`43_master_control.md` R165). -/
theorem dirty_pf1h_masterEffect (i : Fin 8) (value : Byte) (s : State) :
    (masterEffect i value s).dirty.pf1h = s.dirty.pf1h := by
  obtain ⟨p, -, h⟩ | ⟨-, h⟩ | ⟨-, -, -, h⟩ := masterEffect_cases i value s
  · rw [h]
    refine DirtyBits.pf1h_eq_of_get fun k => (isDirty_layerSelect p value s .pf1h k).trans (if_neg ?_)
    cases p <;> simp [Playfield.narrow, Playfield.wide]
  · rw [h, updateRasterLine_eq]
  · rw [h]

/-- A refresh passes over a layer that does not exist (`10_state.md` R38). -/
theorem partialRefresh_high_layer {s : State} (hs : s.cfg.speedup = false) (a b : Int) :
    (partialRefresh a b s).cache.pf1h = s.cache.pf1h ∧ (partialRefresh a b s).dirty.pf1h = s.dirty.pf1h ∧
      (partialRefresh a b s).scroll.pf1h = s.scroll.pf1h := by
  have hnot : Layer.pf1h ∉ existingLayers s.cfg := by simp [mem_existingLayers, hs]
  obtain ⟨-, h⟩ | ⟨-, h⟩ := partialRefresh_cases a b s
  · rw [h]; exact ⟨rfl, rfl, rfl⟩
  · rw [h, refreshBand_eq]
    refine ⟨?_, DirtyBits.pf1h_eq_of_get fun k => ?_, ?_⟩
    · exact (cacheUpdate_get (resolveScroll s) .pf1h).trans (by rw [resolveScroll_frame, if_neg hnot]; rfl)
    · exact (isDirty_cacheUpdate (resolveScroll s) .pf1h k).trans (by rw [resolveScroll_frame, if_neg hnot]; rfl)
    · exact (resolveScroll_get s .pf1h).trans (if_neg hnot)

/-- Settles O59: of the commands that write caches, dirty bits or scroll at all, none reaches the high layer. -/
theorem highLayerIdleWithoutSpeedup : Obligations.HighLayerIdleWithoutSpeedup := by
  intro i s t hs h
  cases hi : isScanTick i with
  | true =>
    obtain ⟨line, rfl⟩ := eq_scanTick_of_isScanTick hi
    obtain ⟨rs, irqs, rfl | ⟨a, b, rfl⟩⟩ := exec_scanTick_cases h
    · exact ⟨rfl, rfl, rfl⟩
    · exact partialRefresh_high_layer hs a b
  | false =>
    obtain ⟨hcache, hscroll, -⟩ := exec_keeps_drawn hi h
    refine ⟨congrArg (·.pf1h) hcache, ?_, congrArg (·.pf1h) hscroll⟩
    cases i with
    | vramWr offset value =>
      obtain rfl := Host.Outcome.next.inj h
      exact dirty_pf1h_markDirty (s := s.setVramByte offset value) hs offset
    | mctlWr index value =>
      obtain rfl := Host.Outcome.next.inj h
      cases reg8OfIndex index with
      | some j => exact dirty_pf1h_masterEffect j value (s.setMasterReg j value)
      | none => rfl
    | _ => exact congrArg (·.pf1h) (exec_keeps_dirty rfl rfl hi h)

end Sys2Proof.Machine
end

section
/-! PROOF. The invariant of reachable states (`10_state.md` R28, R29, R46 b, f): it holds at reset, and every command
keeps it, component by component: canonical contents, latched decodes, legal pixels. -/

namespace Sys2Proof.Machine

/-! ## What the invariant reads -/

/-- The canonical form is about the memories, the caches, the scroll rows and the framebuffer only. -/
theorem State.Canonical.of_contents {s : State} (h : s.Canonical) (cfg : Cfg) (pfctl : PerPf (Vector Byte 8))
    (mctl : Vector Byte 8) (sprctl : Vector Byte 9) (lc : PerPf LayerControl) (line : Int) (rs : RasterState)
    (dirty : DirtyBits) (sticky : Bool) (port : List PortEvent) (out : Output) :
    State.Canonical { s with
      cfg := cfg, pfctl := pfctl, mctl := mctl, sprctl := sprctl, lc := lc, rasterIrqLine := line, rs := rs,
      dirty := dirty, warnRasterCfg := sticky, port := port, out := out } :=
  ⟨h.vram, h.sprLive, h.sprBuf, h.cache, h.scroll, h.fb⟩

/-- The invariant is not about the playfield and sprite registers, `rs`, the dirty bits, the warning, the port or the
output. -/
theorem State.Inv.of_unread {s : State} (h : s.Inv) (pfctl : PerPf (Vector Byte 8)) (sprctl : Vector Byte 9)
    (rs : RasterState) (dirty : DirtyBits) (sticky : Bool) (port : List PortEvent) (out : Output) :
    State.Inv { s with
      pfctl := pfctl, sprctl := sprctl, rs := rs, dirty := dirty, warnRasterCfg := sticky, port := port, out := out } :=
  ⟨h.cfg, h.canonical.of_contents .., h.lc, h.raster, h.pixels⟩

/-- The memories enter the invariant by their canonical form only. -/
theorem State.Inv.of_memories {s : State} (h : s.Inv) {vram live buf : Memory} (hv : Memory.wf vramSize vram = true)
    (hl : Memory.wf sprSize live = true) (hb : Memory.wf sprSize buf = true) :
    State.Inv { s with vram := vram, sprLive := live, sprBuf := buf } :=
  ⟨h.cfg, ⟨hv, hl, hb, h.canonical.cache, h.canonical.scroll, h.canonical.fb⟩, h.lc, h.raster, h.pixels⟩

/-! ## Legal pixels -/

/-- R46 (f) of one pixel. -/
def Pixel.Legal (p : Pixel) : Prop := p.kind ≠ 3 ∧ (p.kind = 0 → p = Pixel.bg)

/-- Framebuffer contents in canonical form whose every pixel is legal, listed or not. -/
def FbLegal (fb : Cells Pixel) : Prop := fbWf fb = true ∧ ∀ k, (Cells.get Pixel.bg fb k).Legal

/-- The pixels of a state are those of the keys: key `k` is row 0, column `k`. -/
theorem State.pixelsLegal_iff (s : State) : s.PixelsLegal ↔ ∀ k, (Cells.get Pixel.bg s.fb k).Legal := by
  constructor
  · intro h k
    have hk : fbKey 0 k = k := Nat.zero_add k
    exact hk ▸ h 0 k
  · exact fun h y x => h (fbKey y x)

theorem Pixel.legal_bg : Pixel.bg.Legal := ⟨by decide, fun _ => rfl⟩

/-- A layer writes pixels of kind 1 (`45_partial_refresh.md` R202). -/
theorem legal_of_layerPixel {s : State} {p : Playfield} {pass : Pass} {x y : Nat} {px : Pixel}
    (h : layerPixel s p pass x y = some px) : px.Legal := by
  have hkind : px.kind = 1 := by
    obtain ⟨-, hpx⟩ := Option.ite_none_right_eq_some.mp h
    exact Option.some.inj hpx ▸ rfl
  exact ⟨by rw [hkind]; decide, fun h0 => absurd (hkind.symm.trans h0) (by decide)⟩

/-- A cell writes pixels of kind 2 (`46_sprite_engine.md` R235). -/
theorem legal_of_blitPixel {c : Cfg} {b : Blit} {x y : Nat} {px : Pixel} (h : blitPixel c b x y = some px) :
    px.Legal := by
  have hkind : px.kind = 2 := by
    obtain ⟨-, hpen⟩ := Option.ite_none_right_eq_some.mp h
    obtain ⟨-, hpx⟩ := Option.ite_none_left_eq_some.mp hpen
    exact Option.some.inj hpx ▸ rfl
  exact ⟨by rw [hkind]; decide, fun h0 => absurd (hkind.symm.trans h0) (by decide)⟩

/-- A paint of legal pixels keeps the framebuffer legal. -/
theorem fbLegal_paint {c : Clip} (hc : c.Narrow) (hr : c.rowHi ≤ 512) {f : Nat → Nat → Option Pixel}
    (hf : ∀ x y px, f x y = some px → px.Legal) {fb : Cells Pixel} (h : FbLegal fb) : FbLegal (paint c f fb) := by
  obtain ⟨hwf, hlegal⟩ := h
  refine ⟨fbWf_paint hc hr hwf f, fun k => ?_⟩
  have hget := Cells.get_update (d := Pixel.bg) (f := fun k old => (f (k % 512) (k / 512)).getD old)
    (Clip.keys_rising hc) (fbWf_rising hwf) k
  have hnew : ((f (k % 512) (k / 512)).getD (Cells.get Pixel.bg fb k)).Legal := by
    cases hpx : f (k % 512) (k / 512) with
    | none => exact hlegal k
    | some px => exact hf _ _ px hpx
  unfold paint
  rw [hget]
  split
  · exact hnew
  · exact hlegal k

/-- The composite draws legal pixels only. -/
theorem fbLegal_compositeFb (s : State) {clip : Clip} (hc : clip.Narrow) (hr : clip.rowHi ≤ 512) {fb : Cells Pixel}
    (h : FbLegal fb) : FbLegal (compositeFb s clip fb) := by
  refine compositeFb_keeps (P := FbLegal) ?_ ?_ ?_ h
  · exact fun p pass g hg => fbLegal_paint hc hr (fun _ _ _ hpx => legal_of_layerPixel hpx) hg
  · exact fun g hg => fbLegal_paint hc hr (fun _ _ px hpx => Option.some.inj hpx ▸ Pixel.legal_bg) hg
  · exact fun b g hg => fbLegal_paint (Clip.narrow_inter hc) (le_trans (Nat.min_le_left ..) hr)
      (fun _ _ _ hpx => legal_of_blitPixel hpx) hg

/-! ## Reset -/

theorem canonical_resetWith (c : Cfg) : (State.resetWith c).Canonical where
  vram := rfl
  sprLive := rfl
  sprBuf := rfl
  cache L := by cases L <;> rfl
  scroll L := by cases L <;> rfl
  fb := rfl

/-- The latched controls at reset are the decode of zero bytes, with and without the speed-up flag. -/
theorem lcLatched_resetWith (c : Cfg) (p : Playfield) : (State.resetWith c).LcLatched p := by
  have hctl : (State.resetWith c).layerCtl p = LayerControl.reset := by cases p <;> rfl
  have hreg : (State.resetWith c).masterReg (selectReg p) = 0 := by cases p <;> rfl
  refine ⟨?_, ?_, ?_, ?_⟩
  · rw [hctl, hreg]; rfl
  · rw [hctl, hreg]; rfl
  · rw [hctl, hreg]; rfl
  · rw [hctl, hreg]
    split
    · rfl
    · rfl

/-- The reset state of every legal configuration meets the invariant (`10_state.md` R42). -/
theorem inv_resetWith {c : Cfg} (hc : c.wf = true) : (State.resetWith c).Inv where
  cfg := hc
  canonical := canonical_resetWith c
  lc := lcLatched_resetWith c
  raster := by
    show (-128 : Int) = ((0 : Byte).toNat : Int) * 256 + ((0 : Byte).toNat : Int) - 128
    decide
  pixels := (State.pixelsLegal_iff _).mpr fun _ => Pixel.legal_bg

/-- Settles O50: the board's visible window is R9's default, which is legal. -/
theorem resetMeetsInvariant : Obligations.ResetMeetsInvariant := inv_resetWith rfl

/-- Settles O52: at reset no tile is clean. -/
theorem resetHasCurrentCaches : Obligations.ResetHasCurrentCaches := by
  intro L _ k hk hclean
  have hdirty : State.reset.isDirty L k = true := (DirtyBits.get_all L k).trans (decide_eq_true hk)
  exact absurd hdirty (by rw [hclean]; exact Bool.false_ne_true)

/-- Settles O17: both scroll values are byte pairs. -/
theorem scrollValuesAreRegisterPairs : Obligations.ScrollValuesAreRegisterPairs := by
  intro s p
  exact ⟨toNat_bytePair (s.pfReg p 5) (s.pfReg p 4), toNat_bytePair (s.pfReg p 1) (s.pfReg p 0)⟩

/-! ## The refresh -/

/-- A refresh keeps the scroll rows canonical. -/
theorem scrollWf_resolveScroll {s : State} (h : s.Canonical) (L : Layer) :
    Cells.wf (0 : Half) 512 ((resolveScroll s).scroll.get L).x = true := by
  rw [resolveScroll_get]
  split
  · exact scrollWf_resolveLayer (h.scroll L)
  · exact h.scroll L

theorem cacheWf_cacheUpdate {s : State} (h : ∀ L, Cells.wf TileEntry.zero L.tiles (s.cache.get L) = true) (L : Layer) :
    Cells.wf TileEntry.zero L.tiles ((cacheUpdate s).cache.get L) = true := by
  rw [cacheUpdate_get]
  split
  · exact cacheWf_cacheUpdateLayer (h L)
  · exact h L

/-- A refresh keeps the invariant: it writes resolved rows, decoded entries and legal pixels, all inside their sizes. -/
theorem State.Inv.partialRefresh {s : State} (h : s.Inv) (a b : Int) : (partialRefresh a b s).Inv := by
  obtain ⟨-, hr⟩ | ⟨hband, hr⟩ := partialRefresh_cases a b s
  · rw [hr]; exact h
  · have hcache : (resolveScroll s).cache = s.cache := congrArg (·.cache) (resolveScroll_frame s)
    have hfb : FbLegal (compositeFb (cacheUpdate (resolveScroll s))
        (bandClip s.cfg (max a s.cfg.visTop) (min b s.cfg.visEnd)) s.fb) :=
      fbLegal_compositeFb _ (bandClip_narrow h.cfg _ _) (bandClip_rows h.cfg _ (by omega))
        ⟨h.canonical.fb, s.pixelsLegal_iff.mp h.pixels⟩
    obtain ⟨hwf, hlegal⟩ := hfb
    rw [hr, refreshBand_eq]
    exact {
      cfg := h.cfg
      canonical := {
        vram := h.canonical.vram
        sprLive := h.canonical.sprLive
        sprBuf := h.canonical.sprBuf
        cache := cacheWf_cacheUpdate (s := resolveScroll s) (by rw [hcache]; exact h.canonical.cache)
        scroll := scrollWf_resolveScroll h.canonical
        fb := hwf }
      lc := h.lc
      raster := h.raster
      pixels := (State.pixelsLegal_iff _).mpr hlegal }

/-! ## The latched registers -/

theorem selectReg_inj (p q : Playfield) : selectReg p = selectReg q ↔ p = q := by
  cases p <;> cases q <;> decide

/-- Neither byte of the raster line is a layer-select byte (`10_state.md` R27). -/
theorem selectReg_ne_raster (p : Playfield) : selectReg p ≠ 6 ∧ selectReg p ≠ 7 := by
  cases p <;> decide

/-- R28 for a playfield whose select byte and latch are as they were. -/
theorem State.LcLatched.of_same {s t : State} {p : Playfield} (h : s.LcLatched p) (hcfg : t.cfg = s.cfg)
    (hctl : t.layerCtl p = s.layerCtl p) (hreg : t.masterReg (selectReg p) = s.masterReg (selectReg p)) :
    t.LcLatched p := by
  obtain ⟨hptr, henabled, hrow, hwide⟩ := h
  rw [← hctl, ← hreg] at hptr henabled hrow hwide
  rw [← hcfg] at hwide
  exact ⟨hptr, henabled, hrow, hwide⟩

/-- R29 while the line and both bytes are as they were. -/
theorem State.RasterLatched.of_same {s t : State} (h : s.RasterLatched) (hline : t.rasterIrqLine = s.rasterIrqLine)
    (hhigh : t.masterReg 7 = s.masterReg 7) (hlow : t.masterReg 6 = s.masterReg 6) : t.RasterLatched := by
  show t.rasterIrqLine = ((t.masterReg 7).toNat : Int) * 256 + (t.masterReg 6).toNat - 128
  rw [hline, hhigh, hlow]
  exact h

theorem masterReg_setMasterReg_other (s : State) {i j : Fin 8} (h : j ≠ i) (v : Byte) :
    (s.setMasterReg i v).masterReg j = s.masterReg j := by
  rw [State.masterReg_setMasterReg, if_neg h]

theorem masterReg_layerSelect (p : Playfield) (value : Byte) (s : State) (j : Fin 8) :
    (layerSelect p value s).masterReg j = s.masterReg j := by
  rw [layerSelect_frame]; rfl

/-- The wide flag a layer select latches, given what R28 says of the one before: playfield 3 keeps `false` under the
speed-up flag. -/
theorem selectWide_eq {c : Cfg} {p : Playfield} {old : Bool} (hold : (c.speedup && p == .pf3) = true → old = false)
    (value : Byte) :
    selectWide c p old value = if c.speedup && p == .pf3 then false else value &&& 0x04 != 0 := by
  have hcomm : (p == .pf3 && c.speedup) = (c.speedup && p == .pf3) := Bool.and_comm ..
  show (if p == .pf3 && c.speedup then old else value.getLsbD 2) = _
  rw [hcomm, wideBit_eq]
  split
  · exact hold ‹_›
  · rfl

/-- Writing a select byte and latching its decode keeps R28 for every playfield (`43_master_control.md` R163). -/
theorem lcLatched_layerSelect {s : State} (h : ∀ q, s.LcLatched q) (p : Playfield) (value : Byte) (q : Playfield) :
    (layerSelect p value (s.setMasterReg (selectReg p) value)).LcLatched q := by
  have hcfg : (layerSelect p value (s.setMasterReg (selectReg p) value)).cfg = s.cfg := layerSelect_cfg ..
  have hctl := layerCtl_layerSelect p q value (s.setMasterReg (selectReg p) value)
  have hreg := (masterReg_layerSelect p value (s.setMasterReg (selectReg p) value) (selectReg q)).trans
    (State.masterReg_setMasterReg ..)
  by_cases hq : q = p
  · subst hq
    rw [if_pos rfl] at hctl hreg
    obtain ⟨-, -, -, hwide⟩ := h q
    refine ⟨?_, ?_, ?_, ?_⟩
    · rw [hctl, hreg]; exact bankPtr_toNat value
    · rw [hctl, hreg]; exact selectEnabled_eq value
    · rw [hctl, hreg]; exact selectRowscroll_eq value
    · rw [hctl, hreg, hcfg]; exact selectWide_eq (fun hs => hwide.trans (if_pos hs)) value
  · rw [if_neg hq] at hctl
    rw [if_neg (mt (selectReg_inj q p).mp hq)] at hreg
    exact (h q).of_same hcfg hctl hreg

/-- Storing a register that is no select byte keeps R28. -/
theorem lcLatched_setMasterReg {s : State} (h : ∀ q, s.LcLatched q) {i : Fin 8} (hi : ∀ q, i ≠ selectReg q)
    (value : Byte) (q : Playfield) : (s.setMasterReg i value).LcLatched q :=
  (h q).of_same rfl rfl (masterReg_setMasterReg_other s (hi q).symm value)

/-- Storing a register that is no byte of the raster line keeps R29. -/
theorem rasterLatched_setMasterReg {s : State} (h : s.RasterLatched) {i : Fin 8} (h6 : i ≠ 6) (h7 : i ≠ 7)
    (value : Byte) : (s.setMasterReg i value).RasterLatched :=
  h.of_same rfl (masterReg_setMasterReg_other s h7.symm value) (masterReg_setMasterReg_other s h6.symm value)

/-- The latch makes the raster line that of both bytes as they stand (`43_master_control.md` R166). -/
theorem rasterLatched_updateRasterLine (s : State) : (updateRasterLine s).RasterLatched := by
  rw [updateRasterLine_eq]
  exact rasterLine_eq (s.masterReg 7) (s.masterReg 6)

theorem lcLatched_updateRasterLine {s : State} {q : Playfield} (h : s.LcLatched q) :
    (updateRasterLine s).LcLatched q := by
  rw [updateRasterLine_eq]
  exact h

/-- Every master control write, with its effect, keeps R28 and R29. -/
theorem latched_masterEffect {s : State} (hlc : ∀ q, s.LcLatched q) (hraster : s.RasterLatched) (i : Fin 8)
    (value : Byte) :
    (∀ q, (masterEffect i value (s.setMasterReg i value)).LcLatched q) ∧
      (masterEffect i value (s.setMasterReg i value)).RasterLatched := by
  obtain ⟨p, rfl, he⟩ | ⟨hi, he⟩ | ⟨hsel, h6, h7, he⟩ := masterEffect_cases i value (s.setMasterReg i value)
  · rw [he]
    obtain ⟨h6, h7⟩ := selectReg_ne_raster p
    refine ⟨lcLatched_layerSelect hlc p value, (rasterLatched_setMasterReg hraster h6 h7 value).of_same ?_ ?_ ?_⟩
    · rw [layerSelect_frame]
    · exact masterReg_layerSelect ..
    · exact masterReg_layerSelect ..
  · have hsel : ∀ q, i ≠ selectReg q := by
      rintro q rfl
      obtain ⟨h6, h7⟩ := selectReg_ne_raster q
      exact hi.elim h6 h7
    rw [he]
    exact ⟨fun q => lcLatched_updateRasterLine (lcLatched_setMasterReg hlc hsel value q),
      rasterLatched_updateRasterLine _⟩
  · rw [he]
    exact ⟨lcLatched_setMasterReg hlc hsel value, rasterLatched_setMasterReg hraster h6 h7 value⟩

/-- A master control write keeps the invariant: it touches no memory, cache or pixel. -/
theorem State.Inv.masterEffect {s : State} (h : s.Inv) (i : Fin 8) (value : Byte) :
    (masterEffect i value (s.setMasterReg i value)).Inv := by
  obtain ⟨hlc, hraster⟩ := latched_masterEffect h.lc h.raster i value
  refine ⟨?_, ?_, hlc, hraster, ?_⟩
  · rw [masterEffect_cfg]; exact h.cfg
  · rw [masterEffect_frame]; exact h.canonical.of_contents ..
  · rw [masterEffect_frame]; exact h.pixels

/-! ## Every command, every step -/

theorem State.Inv.spriteSwap {s : State} (h : s.Inv) (clear : Bool) : (spriteSwap clear s).Inv := by
  obtain ⟨hbuf, hlive⟩ := wf_spriteSwap h.canonical.sprLive clear
  have hmem := (h.of_memories h.canonical.vram hlive hbuf).of_unread s.pfctl s.sprctl s.rs s.dirty s.warnRasterCfg
    s.port (Machine.spriteSwap clear s).out
  rw [spriteSwap_eq] at hmem ⊢
  exact hmem

/-- Every command keeps the invariant. -/
theorem exec_keeps_inv {i : Instr} {s t : State} (hs : s.Inv) (h : exec i s = .next t) : t.Inv := by
  cases i with
  | nop | reservedC | reservedD | reservedE | reservedF =>
    obtain rfl := Host.Outcome.next.inj h
    exact hs
  | vramWr offset value =>
    obtain rfl := Host.Outcome.next.inj h
    rw [markDirty_frame]
    exact (hs.of_memories (wf_setVramByte hs.canonical.vram offset value) hs.canonical.sprLive
      hs.canonical.sprBuf).of_unread ..
  | vramRd | sprRd | statusRd | frameStart =>
    obtain rfl := Host.Outcome.next.inj h
    exact hs.of_unread ..
  | sprWr offset value =>
    obtain rfl := Host.Outcome.next.inj h
    split
    · rename_i hin
      exact hs.of_memories hs.canonical.vram (wf_setSprLiveByte hs.canonical.sprLive hin value) hs.canonical.sprBuf
    · exact hs
  | pfctlWr layer index value =>
    obtain ⟨regs, rfl⟩ := exec_frame h
    exact hs.of_unread ..
  | mctlWr index value =>
    obtain rfl := Host.Outcome.next.inj h
    cases reg8OfIndex index with
    | some j => exact hs.masterEffect j value
    | none => exact hs
  | sprctlWr offset value =>
    obtain rfl := Host.Outcome.next.inj h
    cases reg9OfOffset offset with
    | some j =>
      have hstored : (s.setSpriteReg j value).Inv := hs.of_unread ..
      dsimp only
      split
      · exact hstored.spriteSwap true
      · exact hstored
    | none => exact hs
  | sprbufTrig offset value =>
    obtain rfl := Host.Outcome.next.inj h
    split
    · exact hs.spriteSwap false
    · exact hs
  | scanTick line =>
    obtain ⟨rs, irqs, rfl | ⟨a, b, rfl⟩⟩ := exec_scanTick_cases h
    · exact hs.of_unread ..
    · exact (hs.partialRefresh a b).of_unread ..

/-- Settles O49: waiting changes nothing, a command keeps the invariant, and `RESET` establishes it. -/
theorem stepKeepsInvariant : Obligations.StepKeepsInvariant := by
  intro s t hs h
  obtain ⟨-, rfl⟩ | ⟨w, rest, -, hexec⟩ | ⟨rest, -, rfl⟩ := step_next_cases h
  · exact hs
  · exact exec_keeps_inv (hs.of_unread ..) hexec
  · exact (inv_resetWith hs.cfg).of_unread ..

end Sys2Proof.Machine
end

section
/-! PROOF. Tile caches and VRAM (`20_memory.md` R65, R71, R75, R77): where a tile stands, which writes mark it, that a
clean tile of a coherent layer always holds the decode of its bytes, and that a repeated write changes nothing. -/

namespace Sys2Proof.Machine

/-! ## The tables of the layers -/

section

variable (s : State) (offset : Half) (k : Nat)

@[simp] theorem Layer.tiles_pf1n : Layer.pf1n.tiles = 4096 := rfl
@[simp] theorem Layer.tiles_pf1w : Layer.pf1w.tiles = 8192 := rfl
@[simp] theorem Layer.tiles_pf2n : Layer.pf2n.tiles = 4096 := rfl
@[simp] theorem Layer.tiles_pf3n : Layer.pf3n.tiles = 4096 := rfl
@[simp] theorem Layer.tiles_pf3w : Layer.pf3w.tiles = 8192 := rfl
@[simp] theorem Layer.tiles_pf1h : Layer.pf1h.tiles = 4096 := rfl

@[simp] theorem State.layerBase_pf1n : s.layerBase .pf1n = (s.layerCtl .pf1).ptr := rfl
@[simp] theorem State.layerBase_pf1w : s.layerBase .pf1w = (s.layerCtl .pf1).ptr := rfl
@[simp] theorem State.layerBase_pf2n : s.layerBase .pf2n = (s.layerCtl .pf2).ptr := rfl
@[simp] theorem State.layerBase_pf3n : s.layerBase .pf3n = (s.layerCtl .pf3).ptr := rfl
@[simp] theorem State.layerBase_pf3w : s.layerBase .pf3w = (s.layerCtl .pf3).ptr := rfl
@[simp] theorem State.layerBase_pf1h : s.layerBase .pf1h = 0xC000 := rfl

@[simp] theorem State.coherentLayer_pf1n :
    s.coherentLayer .pf1n = !(s.cfg.speedup && (s.layerCtl .pf1).ptr == 0xC000) := rfl
@[simp] theorem State.coherentLayer_pf1w :
    s.coherentLayer .pf1w =
      ((s.layerCtl .pf1).ptr == 0 || ((s.layerCtl .pf1).ptr == 0x8000 && !s.cfg.speedup)) := rfl
@[simp] theorem State.coherentLayer_pf2n : s.coherentLayer .pf2n = true := rfl
@[simp] theorem State.coherentLayer_pf3n : s.coherentLayer .pf3n = true := rfl
@[simp] theorem State.coherentLayer_pf3w :
    s.coherentLayer .pf3w = ((s.layerCtl .pf3).ptr == 0 || (s.layerCtl .pf3).ptr == 0x8000) := rfl
@[simp] theorem State.coherentLayer_pf1h : s.coherentLayer .pf1h = s.cfg.speedup := rfl

@[simp] theorem marksTile_pf1n : marksTile s offset .pf1n k =
    (!(s.cfg.speedup && offset.toNat / 0x4000 * 0x4000 == 0xC000) &&
      (offset.toNat / 0x4000 * 0x4000 == (s.layerCtl .pf1).ptr.toNat ||
        offset.toNat / 0x4000 * 0x4000 == (s.layerCtl .pf1).ptr.toNat + 0x4000) &&
      k == offset.toNat % 0x4000 / 4) := rfl
@[simp] theorem marksTile_pf1w : marksTile s offset .pf1w k =
    (!(s.cfg.speedup && offset.toNat / 0x4000 * 0x4000 == 0xC000) &&
      (offset.toNat / 0x4000 * 0x4000 == (s.layerCtl .pf1).ptr.toNat ||
        offset.toNat / 0x4000 * 0x4000 == (s.layerCtl .pf1).ptr.toNat + 0x4000) &&
      k == offset.toNat % 0x8000 / 4) := rfl
@[simp] theorem marksTile_pf2n : marksTile s offset .pf2n k =
    ((offset.toNat / 0x4000 * 0x4000 == (s.layerCtl .pf2).ptr.toNat ||
        offset.toNat / 0x4000 * 0x4000 == (s.layerCtl .pf2).ptr.toNat + 0x4000) &&
      k == offset.toNat % 0x4000 / 4) := rfl
@[simp] theorem marksTile_pf3n : marksTile s offset .pf3n k =
    ((offset.toNat / 0x4000 * 0x4000 == (s.layerCtl .pf3).ptr.toNat ||
        offset.toNat / 0x4000 * 0x4000 == (s.layerCtl .pf3).ptr.toNat + 0x4000) &&
      k == offset.toNat % 0x4000 / 4) := rfl
@[simp] theorem marksTile_pf3w : marksTile s offset .pf3w k =
    ((offset.toNat / 0x4000 * 0x4000 == (s.layerCtl .pf3).ptr.toNat ||
        offset.toNat / 0x4000 * 0x4000 == (s.layerCtl .pf3).ptr.toNat + 0x4000) &&
      k == offset.toNat % 0x8000 / 4) := rfl
@[simp] theorem marksTile_pf1h : marksTile s offset .pf1h k =
    ((s.cfg.speedup && offset.toNat / 0x4000 * 0x4000 == 0xC000) && k == offset.toNat % 0x4000 / 4) := rfl

end

/-! ## Where a tile stands -/

/-- Settles O14, by the window that `4 k` never leaves. -/
theorem tileAddressesFollowTheBank : Obligations.TileAddressesFollowTheBank := by
  intro s L k hk
  rw [tileAddr_toNat s hk]
  cases L <;> rfl

/-- R28 gives a bank pointer: a multiple of 0x4000. -/
theorem State.LcLatched.ptr_bank {s : State} {p : Playfield} (h : s.LcLatched p) :
    ∃ b, (s.layerCtl p).ptr.toNat = b * 0x4000 := by
  obtain ⟨hptr, -⟩ := h
  exact ⟨_, hptr⟩

/-- A layer has one or two banks of tiles (`10_state.md` R38). -/
theorem Layer.tiles_cases (L : Layer) : L.tiles = 4096 ∨ L.tiles = 8192 := by
  cases L <;> simp

/-- A coherent layer stands on a multiple of its own size, so no tile of it wraps (`20_memory.md` R76). -/
theorem coherentLayer_base_aligned {s : State} (hlc : ∀ p, s.LcLatched p) {L : Layer} (h : s.coherentLayer L = true) :
    (s.layerBase L).toNat % (4 * L.tiles) = 0 := by
  obtain ⟨b1, h1⟩ := (hlc .pf1).ptr_bank
  obtain ⟨b2, h2⟩ := (hlc .pf2).ptr_bank
  obtain ⟨b3, h3⟩ := (hlc .pf3).ptr_bank
  cases L with
  | pf1n => simp [h1]
  | pf2n => simp [h2]
  | pf3n => simp [h3]
  | pf1h => simp
  | pf1w =>
    have hbase : (s.layerCtl .pf1).ptr = 0 ∨ (s.layerCtl .pf1).ptr = 0x8000 ∧ s.cfg.speedup = false := by
      simpa using h
    obtain hbase | ⟨hbase, -⟩ := hbase <;> simp [hbase]
  | pf3w =>
    have hbase : (s.layerCtl .pf3).ptr = 0 ∨ (s.layerCtl .pf3).ptr = 0x8000 := by
      simpa using h
    obtain hbase | hbase := hbase <;> simp [hbase]

/-- Under the speed-up flag a coherent layer of playfield 1 other than the high one ends below the high bank. -/
theorem coherentLayer_below_high {s : State} (hlc : ∀ p, s.LcLatched p) {L : Layer} (h : s.coherentLayer L = true)
    (hL : L ≠ .pf1h) (hp : L.playfield = .pf1) (hs : s.cfg.speedup = true) :
    (s.layerBase L).toNat + 4 * L.tiles ≤ 0xC000 := by
  obtain ⟨b, hb⟩ := (hlc .pf1).ptr_bank
  have hlt := (s.layerCtl .pf1).ptr.isLt
  cases L with
  | pf1n =>
    have hne : ¬ (s.layerCtl .pf1).ptr.toNat = 0xC000 := by
      simpa [hs, ← BitVec.toNat_inj] using h
    rw [State.layerBase_pf1n, Layer.tiles_pf1n]
    omega
  | pf1w =>
    have hbase : (s.layerCtl .pf1).ptr = 0 := by simpa [hs] using h
    simp [hbase]
  | pf1h => exact absurd rfl hL
  | pf2n | pf3n | pf3w => cases hp

/-- The address of byte `j` of a tile of a coherent layer, with no wrap. -/
theorem coherent_tileByte_toNat {s : State} (hlc : ∀ p, s.LcLatched p) {L : Layer} (h : s.coherentLayer L = true)
    {k j : Nat} (hk : k < L.tiles) (hj : j < 4) :
    (s.tileAddr L k + BitVec.ofNat 16 j).toNat = (s.layerBase L).toNat + 4 * k + j := by
  have haligned := coherentLayer_base_aligned hlc h
  have hlt := (s.layerBase L).isLt
  rw [BitVec.toNat_add, tileAddr_toNat s hk, BitVec.toNat_ofNat]
  obtain ht | ht := L.tiles_cases <;> (rw [ht] at haligned hk; omega)

/-! ## Which tiles a VRAM write marks (`41_vram_access.md` R137, R138) -/

theorem narrowIndex_beq (offset : Half) (k : Nat) :
    (decide (k = narrowIndex offset) && decide (k < 4096)) = (k == offset.toNat % 0x4000 / 4) := by
  rw [narrowIndex_eq, Bool.eq_iff_iff]
  simp only [Bool.and_eq_true, decide_eq_true_eq, beq_iff_eq]
  omega

theorem wideIndex_beq (offset : Half) (k : Nat) :
    (decide (k = wideIndex offset) && decide (k < 8192)) = (k == offset.toNat % 0x8000 / 4) := by
  rw [wideIndex_eq, Bool.eq_iff_iff]
  simp only [Bool.and_eq_true, decide_eq_true_eq, beq_iff_eq]
  omega

theorem bankOf_beq (offset bank : Half) : (bankOf offset == bank) = (offset.toNat / 0x4000 * 0x4000 == bank.toNat) := by
  rw [← bankOf_toNat, Bool.eq_iff_iff, beq_iff_eq, beq_iff_eq, BitVec.toNat_inj]

/-- `MARK_DIRTY` sets the bits R137 and R138 name and keeps every other. -/
theorem isDirty_markDirty (offset : Half) (s : State) (L : Layer) (k : Nat) :
    (markDirty offset s).isDirty L k = (s.isDirty L k || marksTile s offset L k) := by
  simp only [markDirty, isDirty_markPlayfield, markPlayfield_cfg, markPlayfield_layerCtl, Bool.and_assoc,
    narrowIndex_beq, wideIndex_beq, bankOf_beq, bankMatches, bankOf_toNat]
  rw [Bool.eq_iff_iff]
  cases L <;> simp [Playfield.narrow, Playfield.wide, and_assoc]

/-- What it takes to mark a tile of a playfield's own layer: the bank is one of the two from the layer's base on, and is
not diverted to the high layer; the index is the offset in the layer's window. -/
theorem marksTile_of_hit {s : State} {offset : Half} {L : Layer} {k : Nat} (hL : L ≠ .pf1h)
    (hbank : offset.toNat / 0x4000 * 0x4000 = (s.layerBase L).toNat ∨
      offset.toNat / 0x4000 * 0x4000 = (s.layerBase L).toNat + 0x4000)
    (hhigh : L.playfield = .pf1 → s.cfg.speedup = true → offset.toNat / 0x4000 * 0x4000 ≠ 0xC000)
    (hindex : k = offset.toNat % (4 * L.tiles) / 4) : marksTile s offset L k = true := by
  subst hindex
  cases L with
  | pf1h => exact absurd rfl hL
  | pf1n | pf1w =>
    have hdiverted : s.cfg.speedup = false ∨ ¬ offset.toNat / 0x4000 * 0x4000 = 0xC000 := by
      cases hs : s.cfg.speedup with
      | false => exact .inl rfl
      | true => exact .inr (hhigh rfl hs)
    simpa [hdiverted] using hbank
  | pf2n | pf3n | pf3w => simpa using hbank

/-- A write to any of the four bytes of a tile of a coherent layer marks that tile: what coherence means
(`20_memory.md` R75). -/
theorem marksTile_of_coherent {s : State} (hlc : ∀ p, s.LcLatched p) {L : Layer} (h : s.coherentLayer L = true)
    {k j : Nat} (hk : k < L.tiles) (hj : j < 4) :
    marksTile s (s.tileAddr L k + BitVec.ofNat 16 j) L k = true := by
  have haddr := coherent_tileByte_toNat hlc h hk hj
  have haligned := coherentLayer_base_aligned hlc h
  generalize s.tileAddr L k + BitVec.ofNat 16 j = offset at haddr
  have hindex : k = offset.toNat % (4 * L.tiles) / 4 := by
    obtain ht | ht := L.tiles_cases <;> (rw [ht] at haligned hk ⊢; omega)
  have hbank : offset.toNat / 0x4000 * 0x4000 = (s.layerBase L).toNat ∨
      L.tiles = 8192 ∧ offset.toNat / 0x4000 * 0x4000 = (s.layerBase L).toNat + 0x4000 := by
    obtain ht | ht := L.tiles_cases <;> (rw [ht] at haligned hk ⊢; omega)
  by_cases hL : L = .pf1h
  · subst hL
    have hs : s.cfg.speedup = true := h
    have hhigh : offset.toNat / 0x4000 * 0x4000 = 0xC000 := hbank.resolve_right (by simp)
    simpa [hs, hhigh] using hindex
  · refine marksTile_of_hit hL (hbank.imp_right And.right) (fun hp hs => ?_) hindex
    have hbelow := coherentLayer_below_high hlc h hL hp hs
    omega

/-! ## What the currency of a layer reads -/

/-- While the layer is coherent, every clean tile of it is cached as the decode of its bytes as they stand
(`20_memory.md` R77). -/
def State.LayerCurrent (s : State) (L : Layer) : Prop :=
  s.coherentLayer L = true → ∀ k, k < L.tiles → s.isDirty L k = false →
    s.cacheEntry L k = decodeTile s L.variant (s.tileAddr L k)

theorem State.cachesCurrent_iff (s : State) : s.CachesCurrent ↔ ∀ L, s.LayerCurrent L := Iff.rfl

/-- Coherence is about the configuration and the layer's base. -/
theorem State.coherentLayer_congr {s t : State} {L : Layer} (hcfg : t.cfg = s.cfg)
    (hbase : t.layerBase L = s.layerBase L) : t.coherentLayer L = s.coherentLayer L := by
  cases L with
  | pf2n | pf3n => rfl
  | pf1h => exact congrArg (·.speedup) hcfg
  | pf1n =>
    have hptr : (t.layerCtl .pf1).ptr = (s.layerCtl .pf1).ptr := hbase
    rw [State.coherentLayer_pf1n, State.coherentLayer_pf1n, hptr, hcfg]
  | pf1w =>
    have hptr : (t.layerCtl .pf1).ptr = (s.layerCtl .pf1).ptr := hbase
    rw [State.coherentLayer_pf1w, State.coherentLayer_pf1w, hptr, hcfg]
  | pf3w =>
    have hptr : (t.layerCtl .pf3).ptr = (s.layerCtl .pf3).ptr := hbase
    rw [State.coherentLayer_pf3w, State.coherentLayer_pf3w, hptr]

/-- A decode reads four bytes (`40_tile_decode.md` R121). -/
theorem decodeTile_congr {s t : State} {a : Half}
    (h : ∀ j < 4, t.vramByte (a + BitVec.ofNat 16 j) = s.vramByte (a + BitVec.ofNat 16 j)) (v : Variant) :
    decodeTile t v a = decodeTile s v a := by
  have h0 : t.vramByte a = s.vramByte a := by simpa using h 0 (by decide)
  have h1 : t.vramByte (a + 1) = s.vramByte (a + 1) := h 1 (by decide)
  have h2 : t.vramByte (a + 2) = s.vramByte (a + 2) := h 2 (by decide)
  have h3 : t.vramByte (a + 3) = s.vramByte (a + 3) := h 3 (by decide)
  rw [decodeTile, h0, h1, h2, h3, decodeTile]

theorem State.LayerCurrent.of_same {s t : State} {L : Layer} (h : s.LayerCurrent L) (hcfg : t.cfg = s.cfg)
    (hbase : t.layerBase L = s.layerBase L) (hvram : t.vram = s.vram) (hcache : t.cache = s.cache)
    (hdirty : ∀ k, t.isDirty L k = s.isDirty L k) : t.LayerCurrent L := by
  intro hcoh k hk hclean
  rw [State.coherentLayer_congr hcfg hbase] at hcoh
  rw [hdirty] at hclean
  have hdecode : decodeTile t L.variant (s.tileAddr L k) = decodeTile s L.variant (s.tileAddr L k) :=
    decodeTile_congr (fun j _ => congrArg (Memory.read · _) hvram) _
  rw [State.cacheEntry, hcache, State.tileAddr, hbase]
  exact (h hcoh k hk hclean).trans hdecode.symm

/-- A layer whose tiles are all dirty has no clean tile to be out of date. -/
theorem State.LayerCurrent.of_dirty {s : State} {L : Layer} (h : ∀ k, s.isDirty L k = decide (k < L.tiles)) :
    s.LayerCurrent L := by
  intro _ k hk hclean
  rw [h, decide_eq_true hk] at hclean
  cases hclean

theorem State.CachesCurrent.of_same {s t : State} (h : s.CachesCurrent) (hcfg : t.cfg = s.cfg) (hlc : t.lc = s.lc)
    (hvram : t.vram = s.vram) (hcache : t.cache = s.cache) (hdirty : t.dirty = s.dirty) : t.CachesCurrent := by
  refine t.cachesCurrent_iff.mpr fun L => ?_
  have hbase : t.layerBase L = s.layerBase L := by cases L <;> simp [State.layerCtl, hlc]
  exact (s.cachesCurrent_iff.mp h L).of_same hcfg hbase hvram hcache fun k => congrArg (·.get L k) hdirty

/-! ## VRAM writes -/

/-- A tile none of whose four bytes is written decodes as before. -/
theorem decodeTile_setVramByte {s : State} (hwf : Memory.wf vramSize s.vram = true) {offset a : Half}
    (h : ∀ j < 4, offset ≠ a + BitVec.ofNat 16 j) (value : Byte) (v : Variant) :
    decodeTile (s.setVramByte offset value) v a = decodeTile s v a :=
  decodeTile_congr (fun j hj => by rw [State.vramByte_setVramByte hwf, if_neg (h j hj).symm]) v

/-- A VRAM write keeps the caches current: in a coherent layer it marks the tile whose bytes it changes. -/
theorem State.CachesCurrent.vramWr {s : State} (hinv : s.Inv) (h : s.CachesCurrent) (offset : Half) (value : Byte) :
    (markDirty offset (s.setVramByte offset value)).CachesCurrent := by
  intro L hcoh k hk hclean
  rw [isDirty_markDirty, Bool.or_eq_false_iff] at hclean
  obtain ⟨hclean, hunmarked⟩ := hclean
  rw [markDirty_frame] at hcoh ⊢
  have hother : ∀ j < 4, offset ≠ s.tileAddr L k + BitVec.ofNat 16 j := by
    rintro j hj rfl
    have hmarked : marksTile s (s.tileAddr L k + BitVec.ofNat 16 j) L k = true :=
      marksTile_of_coherent hinv.lc hcoh hk hj
    exact absurd (hmarked.symm.trans hunmarked) (by decide)
  exact (h L hcoh k hk hclean).trans (decodeTile_setVramByte hinv.canonical.vram hother value _).symm

/-! ## Master control writes -/

/-- Each layer but the high one is its playfield's narrow or wide one and stands at its bank pointer. -/
theorem layer_of_playfield {L : Layer} (hL : L ≠ .pf1h) (s : State) :
    (L = L.playfield.narrow ∨ L.playfield.wide = some L) ∧ s.layerBase L = (s.layerCtl L.playfield).ptr := by
  cases L <;> simp [Layer.playfield, Playfield.narrow, Playfield.wide] at hL ⊢

/-- A layer select moves no layer that it does not mark (`43_master_control.md` R165). -/
theorem layerBase_layerSelect {p : Playfield} {value : Byte} {s : State} {L : Layer}
    (h : ¬ (bankPtr value ≠ (s.layerCtl p).ptr ∧ (L = p.narrow ∨ p.wide = some L))) :
    (layerSelect p value s).layerBase L = s.layerBase L := by
  by_cases hL : L = .pf1h
  · subst hL; rfl
  · obtain ⟨hown, hbase⟩ := layer_of_playfield hL s
    rw [hbase, (layer_of_playfield hL _).2, layerCtl_layerSelect]
    split
    · rename_i hp
      rw [hp] at hown ⊢
      exact not_not.mp fun hne => h ⟨hne, hown⟩
    · rfl

/-- A layer select keeps the caches current: a layer that moves is dirty from end to end. -/
theorem State.CachesCurrent.layerSelect {s : State} (h : s.CachesCurrent) (p : Playfield) (value : Byte) :
    (layerSelect p value s).CachesCurrent := by
  refine (State.cachesCurrent_iff _).mpr fun L => ?_
  have hdirty := isDirty_layerSelect p value s L
  by_cases hmoved : bankPtr value ≠ (s.layerCtl p).ptr ∧ (L = p.narrow ∨ p.wide = some L)
  · simp only [if_pos hmoved] at hdirty
    exact State.LayerCurrent.of_dirty hdirty
  · simp only [if_neg hmoved] at hdirty
    exact (s.cachesCurrent_iff.mp h L).of_same (layerSelect_cfg ..) (layerBase_layerSelect hmoved)
      (by rw [layerSelect_frame]) (by rw [layerSelect_frame]) hdirty

theorem State.CachesCurrent.masterEffect {s : State} (h : s.CachesCurrent) (i : Fin 8) (value : Byte) :
    (masterEffect i value s).CachesCurrent := by
  obtain ⟨p, -, he⟩ | ⟨-, he⟩ | ⟨-, -, -, he⟩ := masterEffect_cases i value s
  · rw [he]; exact h.layerSelect p value
  · rw [he, updateRasterLine_eq]; exact h.of_same rfl rfl rfl rfl rfl
  · rw [he]; exact h

/-! ## Refreshes -/

/-- A coherent layer is one that exists (`10_state.md` R38). -/
theorem coherentLayer_exists {s : State} {L : Layer} (h : s.coherentLayer L = true) : L ∈ existingLayers s.cfg := by
  rw [mem_existingLayers]
  by_cases hL : L = .pf1h
  · subst hL; exact .inr h
  · exact .inl hL

/-- After `CACHE_UPDATE` every tile of a coherent layer is current: the dirty ones are decoded, the clean ones were. -/
theorem State.CachesCurrent.cacheEntry_cacheUpdate {s : State} (h : s.CachesCurrent) {L : Layer}
    (hwf : Cells.wf TileEntry.zero L.tiles (s.cache.get L) = true) (hcoh : s.coherentLayer L = true) {k : Nat}
    (hk : k < L.tiles) : (cacheUpdate s).cacheEntry L k = decodeTile s L.variant (s.tileAddr L k) := by
  have hget : (cacheUpdate s).cacheEntry L k = (cacheUpdateLayer s L).cacheEntry L k := by
    rw [State.cacheEntry, cacheUpdate_get, if_pos (coherentLayer_exists hcoh), State.cacheEntry]
  rw [hget, cacheEntry_cacheUpdateLayer s L k hwf]
  split
  · rfl
  · rename_i hkept
    exact h L hcoh k hk (by simpa [hk] using hkept)

/-- Settles O53: a refresh updates the caches after `RESOLVE_SCROLL`, which no decode reads. -/
theorem refreshDrawsFromCurrentVram : Obligations.RefreshDrawsFromCurrentVram := by
  intro s a b hinv hcur hband L k hcoh hk
  obtain ⟨hempty, -⟩ | ⟨-, hr⟩ := partialRefresh_cases a b s
  · omega
  · have hresolved : (resolveScroll s).CachesCurrent := by
      rw [resolveScroll_frame]; exact hcur.of_same rfl rfl rfl rfl rfl
    have hentry := hresolved.cacheEntry_cacheUpdate (L := L) (k := k)
    rw [hr, refreshBand_eq]
    rw [resolveScroll_frame] at hentry ⊢
    exact hentry (hinv.canonical.cache L) hcoh hk

theorem State.CachesCurrent.partialRefresh {s : State} (hinv : s.Inv) (h : s.CachesCurrent) (a b : Int) :
    (partialRefresh a b s).CachesCurrent := by
  obtain ⟨-, hr⟩ | ⟨hband, -⟩ := partialRefresh_cases a b s
  · rw [hr]; exact h
  · intro L hcoh k hk _
    have hentry := refreshDrawsFromCurrentVram s a b hinv h hband L k
    rw [partialRefresh_frame] at hcoh hentry ⊢
    exact hentry hcoh hk

/-! ## Every command, every step -/

/-- A command that is no `VRAM_WR`, `MCTL_WR` or tick writes nothing the caches are compared with. -/
theorem State.CachesCurrent.of_exec_other {i : Instr} {s t : State} (h : s.CachesCurrent) (hv : isVramWr i = false)
    (hm : isMctlWr i = false) (hi : isScanTick i = false) (he : exec i s = .next t) : t.CachesCurrent := by
  obtain ⟨hcfg, -, hvram, -, -, -, hmctl, -⟩ := onlyNamedWritersChangeEachComponent i s t he
  obtain ⟨-, hlc, -⟩ := hmctl hm
  obtain ⟨hcache, -⟩ := exec_keeps_drawn hi he
  exact h.of_same hcfg hlc (hvram hv) hcache (exec_keeps_dirty hv hm hi he)

theorem exec_keeps_cachesCurrent {i : Instr} {s t : State} (hinv : s.Inv) (hcur : s.CachesCurrent)
    (h : exec i s = .next t) : t.CachesCurrent := by
  cases i with
  | vramWr offset value =>
    obtain rfl := Host.Outcome.next.inj h
    exact hcur.vramWr hinv offset value
  | mctlWr index value =>
    obtain rfl := Host.Outcome.next.inj h
    cases reg8OfIndex index with
    | none => exact hcur
    | some j =>
      have hstored : (s.setMasterReg j value).CachesCurrent := hcur.of_same rfl rfl rfl rfl rfl
      exact hstored.masterEffect j value
  | scanTick line =>
    obtain ⟨rs, irqs, rfl | ⟨a, b, rfl⟩⟩ := exec_scanTick_cases h
    · exact hcur.of_same rfl rfl rfl rfl rfl
    · exact (hcur.partialRefresh hinv a b).of_same rfl rfl rfl rfl rfl
  | _ => exact hcur.of_exec_other rfl rfl rfl h

/-- `RESET` leaves no tile clean, whatever the configuration (`10_state.md` R42). -/
theorem cachesCurrent_resetPin (s : State) : (resetPin s).CachesCurrent :=
  (State.cachesCurrent_iff _).mpr fun L => State.LayerCurrent.of_dirty (DirtyBits.get_all L)

/-- Settles O51: waiting changes nothing, a command keeps the caches current, and `RESET` dirties every tile. -/
theorem stepKeepsCachesCurrent : Obligations.StepKeepsCachesCurrent := by
  intro s t hinv hcur h
  obtain ⟨-, rfl⟩ | ⟨w, rest, -, hexec⟩ | ⟨rest, -, rfl⟩ := step_next_cases h
  · exact hcur
  · have hbegun : (s.beginCommand rest).CachesCurrent := hcur.of_same rfl rfl rfl rfl rfl
    exact exec_keeps_cachesCurrent (hinv.of_unread ..) hbegun hexec
  · exact cachesCurrent_resetPin _

/-! ## Repeated writes (`20_memory.md` R71) -/

/-- Writing a byte again changes nothing. -/
theorem Memory.write_write {m : Memory} {size : Nat} (hm : Memory.wf size m = true) {a : Nat} (ha : a < size)
    (v : Byte) : Memory.write (Memory.write m a v) a v = Memory.write m a v := by
  have hw := Memory.wf_write hm ha v
  refine Memory.ext_read (Memory.wf_write hw ha v) hw fun b => ?_
  rw [Memory.read_write hw]
  split
  · rename_i hb; rw [hb, Memory.read_write hm, if_pos rfl]
  · rfl

theorem PerPf.set_set {α : Type} (t : PerPf α) (p : Playfield) (v w : α) : (t.set p v).set p w = t.set p w := by
  cases p <;> rfl

theorem PerPf.set_get_self {α : Type} (t : PerPf α) (p : Playfield) : t.set p (t.get p) = t := by
  cases p <;> rfl

theorem State.setVramByte_again {s : State} {a : Half} {v : Byte} (h : Memory.write s.vram a.toNat v = s.vram) :
    s.setVramByte a v = s := by
  rw [State.setVramByte, h]

theorem State.setSprLiveByte_setSprLiveByte {s : State} (h : Memory.wf sprSize s.sprLive = true) {a : Nat}
    (ha : a ≤ 0x7FF) (v : Byte) : (s.setSprLiveByte a v).setSprLiveByte a v = s.setSprLiveByte a v := by
  rw [State.setSprLiveByte, State.setSprLiveByte_sprLive, Memory.write_write h (Nat.lt_succ_of_le ha)]
  rfl

theorem State.setPfReg_setPfReg (s : State) (p : Playfield) (i : Fin 8) (v : Byte) :
    (s.setPfReg p i v).setPfReg p i v = s.setPfReg p i v := by
  simp [State.setPfReg, PerPf.set_set]

theorem State.setMasterReg_again {s : State} {i : Fin 8} {v : Byte} (h : s.mctl.set i v = s.mctl) :
    s.setMasterReg i v = s := by
  rw [State.setMasterReg, h]

theorem State.setLayerCtl_layerCtl (s : State) (p : Playfield) : s.setLayerCtl p (s.layerCtl p) = s := by
  rw [State.setLayerCtl, State.layerCtl, PerPf.set_get_self]

/-- Dirty bits that read alike are equal. -/
theorem DirtyBits.ext_get {d e : DirtyBits} (h : ∀ L k, d.get L k = e.get L k) : d = e := by
  cases d; cases e
  simp only [DirtyBits.mk.injEq]
  exact ⟨BitVec.eq_of_getLsbD_eq fun k _ => h .pf1n k, BitVec.eq_of_getLsbD_eq fun k _ => h .pf1w k,
    BitVec.eq_of_getLsbD_eq fun k _ => h .pf2n k, BitVec.eq_of_getLsbD_eq fun k _ => h .pf3n k,
    BitVec.eq_of_getLsbD_eq fun k _ => h .pf3w k, BitVec.eq_of_getLsbD_eq fun k _ => h .pf1h k⟩

/-- Which tile a write marks is about the configuration and the bank pointers. -/
theorem marksTile_congr {s t : State} (hcfg : t.cfg = s.cfg) (hlc : t.lc = s.lc) (offset : Half) (L : Layer) (k : Nat) :
    marksTile t offset L k = marksTile s offset L k := by
  cases L <;> simp [State.layerCtl, hcfg, hlc]

theorem markDirty_markDirty (offset : Half) (s : State) :
    markDirty offset (markDirty offset s) = markDirty offset s := by
  have hmarks : ∀ L k, marksTile (markDirty offset s) offset L k = marksTile s offset L k :=
    marksTile_congr (markDirty_cfg ..) (by rw [markDirty_frame]) offset
  have hdirty : (markDirty offset (markDirty offset s)).dirty = (markDirty offset s).dirty := by
    refine DirtyBits.ext_get fun L k => ?_
    show (markDirty offset (markDirty offset s)).isDirty L k = (markDirty offset s).isDirty L k
    rw [isDirty_markDirty offset (markDirty offset s), hmarks, isDirty_markDirty, Bool.or_assoc, Bool.or_self]
  rw [markDirty_frame, hdirty]

theorem selectWide_selectWide (c : Cfg) (p : Playfield) (old : Bool) (value : Byte) :
    selectWide c p (selectWide c p old value) value = selectWide c p old value := by
  unfold selectWide
  split
  · rfl
  · rfl

/-- A byte whose decode is latched already changes nothing: the pointer stays, so nothing is marked. -/
theorem layerSelect_of_latched {p : Playfield} {value : Byte} {s : State}
    (h : s.layerCtl p =
      { ptr := bankPtr value
        wide := selectWide s.cfg p (s.layerCtl p).wide value
        enabled := selectEnabled value
        rowscroll := selectRowscroll value }) : layerSelect p value s = s := by
  have hptr : (bankPtr value != (s.layerCtl p).ptr) = false := by rw [h]; exact bne_self_eq_false _
  simp only [layerSelect, hptr, Bool.false_eq_true, if_false]
  rw [← h, State.setLayerCtl_layerCtl]

theorem layerSelect_layerSelect (p : Playfield) (value : Byte) (s : State) :
    layerSelect p value (layerSelect p value s) = layerSelect p value s := by
  refine layerSelect_of_latched ?_
  rw [layerCtl_layerSelect, if_pos rfl, layerSelect_cfg]
  dsimp only
  rw [selectWide_selectWide]

theorem updateRasterLine_updateRasterLine (s : State) :
    updateRasterLine (updateRasterLine s) = updateRasterLine s := by
  have hreg : ∀ i, (updateRasterLine s).masterReg i = s.masterReg i := fun i => by rw [updateRasterLine_eq]; rfl
  rw [updateRasterLine_eq (updateRasterLine s), hreg, hreg, updateRasterLine_cfg, updateRasterLine_eq]
  simp only [← Bool.or_assoc, Bool.or_self]

theorem masterEffect_selectReg (p : Playfield) (value : Byte) (s : State) :
    masterEffect (selectReg p) value s = layerSelect p value s := by
  cases p <;> rfl

theorem masterEffect_masterEffect (i : Fin 8) (value : Byte) (s : State) :
    masterEffect i value (masterEffect i value s) = masterEffect i value s := by
  obtain ⟨p, rfl, -⟩ | ⟨rfl | rfl, -⟩ | ⟨-, -, -, he⟩ := masterEffect_cases i value s
  · rw [masterEffect_selectReg, masterEffect_selectReg, layerSelect_layerSelect]
  · exact updateRasterLine_updateRasterLine s
  · exact updateRasterLine_updateRasterLine s
  · rw [he, he]

/-- Settles O58: a second write of the same byte stores what is there, latches what is latched, marks what is marked. -/
theorem registerAndMemoryWritesAreIdempotent : Obligations.RegisterAndMemoryWritesAreIdempotent := by
  intro i s t hinv hi h
  cases i with
  | vramWr offset value =>
    obtain rfl := Host.Outcome.next.inj h
    have hvram : (markDirty offset (s.setVramByte offset value)).vram = Memory.write s.vram offset.toNat value := by
      rw [markDirty_frame]; rfl
    have hstored := State.setVramByte_again (s := markDirty offset (s.setVramByte offset value)) (a := offset)
      (v := value) (by rw [hvram, Memory.write_write hinv.canonical.vram offset.isLt])
    exact congrArg Host.Outcome.next (by rw [hstored, markDirty_markDirty])
  | sprWr offset value =>
    obtain rfl := Host.Outcome.next.inj h
    refine congrArg Host.Outcome.next ?_
    by_cases hin : offset.toNat ≤ 0x7FF
    · simp only [if_pos hin]
      exact State.setSprLiveByte_setSprLiveByte hinv.canonical.sprLive hin value
    · simp only [if_neg hin]
  | pfctlWr layer index value =>
    obtain rfl := Host.Outcome.next.inj h
    refine congrArg Host.Outcome.next ?_
    cases playfieldOfSel layer with
    | none => rfl
    | some p =>
      cases reg8OfIndex index with
      | none => rfl
      | some j => exact State.setPfReg_setPfReg s p j value
  | mctlWr index value =>
    obtain rfl := Host.Outcome.next.inj h
    refine congrArg Host.Outcome.next ?_
    cases reg8OfIndex index with
    | none => rfl
    | some j =>
      have hmctl : (masterEffect j value (s.setMasterReg j value)).mctl = s.mctl.set j value := by
        rw [masterEffect_frame]; rfl
      have hstored := State.setMasterReg_again (s := masterEffect j value (s.setMasterReg j value)) (i := j)
        (v := value) (by rw [hmctl, Vector.set_set])
      dsimp only
      rw [hstored, masterEffect_masterEffect]
  | _ => simp [isVramWr, isSprWr, isPfctlWr, isMctlWr] at hi

end Sys2Proof.Machine
end

section
/-! PROOF. The encoding (`30_encoding.md`): the shifted word of R106 is the packed one, the bits of a word that its
command keeps, and the commands that do nothing. -/

namespace Sys2Proof.Machine

/-! ## Decoding what is encoded -/

/-- Settles O1, by the lemma that presented words rest on. -/
theorem decodeEncodeRoundTrip : Obligations.DecodeEncodeRoundTrip := decode_encode

/-- Settles O4: each word of R106 is the encoder's word of its command. -/
theorem sampleCommandWordsDecode : Obligations.SampleCommandWordsDecode :=
  ⟨decode_encode (.vramWr 0xF402 0x10), decode_encode (.vramRd 0xF402), decode_encode (.sprWr 0x006 0x90),
    decode_encode (.sprRd 0x006), decode_encode (.pfctlWr 1 4 0x20), decode_encode (.mctlWr 6 0x80),
    decode_encode (.sprctlWr 8 0x00), decode_encode (.sprbufTrig 0 0x00), decode_encode (.scanTick 248),
    decode_encode .statusRd, decode_encode .frameStart, decode_encode .nop⟩

/-! ## The opcode map -/

/-- The shifts of R106 put every field where the packed word has it. -/
theorem commandWord_eq_packWord (op sel : BitVec 4) (addr : Half) (data : Byte) :
    commandWord op sel addr data = packWord op sel addr data := by
  refine BitVec.eq_of_getLsbD_eq fun i hi => ?_
  have hdata : 8 ≤ i → data.getLsbD i = false := BitVec.getLsbD_of_ge data i
  have haddr : 24 ≤ i → addr.getLsbD (i - 8) = false := fun h => BitVec.getLsbD_of_ge addr _ (by omega)
  have hsel : 28 ≤ i → sel.getLsbD (i - 24) = false := fun h => BitVec.getLsbD_of_ge sel _ (by omega)
  simp only [getLsbD_packWord, commandWord, BitVec.getLsbD_or, BitVec.getLsbD_shiftLeft, BitVec.getLsbD_setWidth]
  grind

/-- Settles O3: the fields of a packed word are its parts, and `OP` selects the row of R93. -/
theorem decodeFollowsOpcodeMap : Obligations.DecodeFollowsOpcodeMap := by
  intro sel addr data
  simp only [commandWord_eq_packWord]
  and_intros <;> simp [decode]

/-! ## The bits a command keeps -/

/-- `decode` keeps `OP`: what it selects has that opcode, and 0xF is the one value left to the last row. -/
theorem opcode_decode (w : CmdWord) : Laws.OpcodeOf.opcode (decode w) = opField w := by
  refine BitVec.eq_of_toNat_eq ?_
  have hlt := (opField w).isLt
  unfold decode
  split
  case h_16 =>
    show 0xF = (opField w).toNat
    grind
  all_goals exact Eq.symm ‹_›

/-- A mask keeps of each field what the field of the mask keeps. -/
theorem and_packWord (w : CmdWord) (op sel : BitVec 4) (addr : Half) (data : Byte) :
    w &&& packWord op sel addr data =
      packWord (opField w &&& op) (selField w &&& sel) (addrField w &&& addr) (dataField w &&& data) := by
  rw [← packWord_and, packWord_fields]

section

variable {w : CmdWord} {op : BitVec 4}

/-- The word of a command that uses `OP` alone. -/
theorem packWord_op (hop : op = opField w) : packWord op 0 0 0 = w &&& 0xF0000000 := by
  have hmask : (0xF0000000 : CmdWord) = packWord (.allOnes 4) 0 0 0 := rfl
  simp only [hmask, and_packWord, hop, BitVec.and_allOnes, BitVec.ofNat_eq_ofNat, BitVec.and_zero]

/-- The word of a command that uses `ADDR`. -/
theorem packWord_op_addr (hop : op = opField w) : packWord op 0 (addrField w) 0 = w &&& 0xF0FFFF00 := by
  have hmask : (0xF0FFFF00 : CmdWord) = packWord (.allOnes 4) 0 (.allOnes 16) 0 := rfl
  simp only [hmask, and_packWord, hop, BitVec.and_allOnes, BitVec.ofNat_eq_ofNat, BitVec.and_zero]

/-- The word of a command that uses `ADDR` and `DATA`. -/
theorem packWord_op_addr_data (hop : op = opField w) :
    packWord op 0 (addrField w) (dataField w) = w &&& 0xF0FFFFFF := by
  have hmask : (0xF0FFFFFF : CmdWord) = packWord (.allOnes 4) 0 (.allOnes 16) (.allOnes 8) := rfl
  simp only [hmask, and_packWord, hop, BitVec.and_allOnes, BitVec.ofNat_eq_ofNat, BitVec.and_zero]

/-- The word of a command that uses every field. -/
theorem packWord_op_sel_addr_data (hop : op = opField w) :
    packWord op (selField w) (addrField w) (dataField w) = w &&& 0xFFFFFFFF := by
  rw [hop, packWord_fields]
  exact BitVec.and_allOnes.symm

end

/-- Settles O2, row by row of R93: the encoder packs the fields that the row's mask keeps. -/
theorem encodeDecodeClearsIgnoredFields : Obligations.EncodeDecodeClearsIgnoredFields := by
  intro w
  have hop := opcode_decode w
  revert hop
  unfold decode
  split
  · exact packWord_op
  · exact packWord_op_addr_data
  · exact packWord_op_addr
  · exact packWord_op_addr_data
  · exact packWord_op_addr
  · exact packWord_op_sel_addr_data
  · exact packWord_op_addr_data
  · exact packWord_op_addr_data
  · exact packWord_op_addr_data
  · exact packWord_op_addr
  · exact packWord_op
  · exact packWord_op
  · exact packWord_op
  · exact packWord_op
  · exact packWord_op
  · exact packWord_op

/-! ## Commands without effect -/

/-- Settles O10: the arm of each of the five answers the state it is given. -/
theorem nopAndReservedChangeNothing : Obligations.NopAndReservedChangeNothing :=
  fun _ => ⟨rfl, rfl, rfl, rfl, rfl⟩

/-- No playfield has a selector above 2 (R91). -/
theorem playfieldOfSel_of_gt {sel : BitVec 4} (h : 2 < sel.toNat) : playfieldOfSel sel = none := by
  unfold playfieldOfSel
  split
  case h_4 => rfl
  all_goals omega

theorem reg8OfIndex_of_gt {index : Half} (h : 7 < index.toNat) : reg8OfIndex index = none :=
  dif_neg (Nat.not_lt.mpr h)

theorem reg9OfOffset_of_gt {offset : Half} (h : 8 < offset.toNat) : reg9OfOffset offset = none :=
  dif_neg (Nat.not_lt.mpr h)

/-- An operand that a range check of R91 refuses lies above the bound. -/
theorem lt_of_decide_le_eq_false {m n : Nat} (h : decide (m ≤ n) = false) : n < m :=
  Nat.lt_of_not_le (of_decide_eq_false h)

/-- Settles O11: an operand its range check refuses fails the test in the command's arm, or names no playfield or
register (R95). -/
theorem outOfRangeOperandsAreIgnored : Obligations.OutOfRangeOperandsAreIgnored := by
  intro i s hrange
  cases i with
  | sprWr offset value => exact congrArg Host.Outcome.next (if_neg (of_decide_eq_false hrange))
  | sprRd offset => exact congrArg (Host.Outcome.next <| s.respond ·) (if_neg (of_decide_eq_false hrange))
  | pfctlWr layer index value =>
    refine congrArg Host.Outcome.next ?_
    obtain hlayer | hindex := Bool.and_eq_false_iff.mp hrange
    · rw [playfieldOfSel_of_gt (lt_of_decide_le_eq_false hlayer)]
    · rw [reg8OfIndex_of_gt (lt_of_decide_le_eq_false hindex)]
      cases playfieldOfSel layer <;> rfl
  | mctlWr index value =>
    refine congrArg Host.Outcome.next ?_
    rw [reg8OfIndex_of_gt (lt_of_decide_le_eq_false hrange)]
  | sprctlWr offset value =>
    refine congrArg Host.Outcome.next ?_
    rw [reg9OfOffset_of_gt (lt_of_decide_le_eq_false hrange)]
  | sprbufTrig offset value =>
    have hoffset : (offset == 0) = false := by
      refine beq_false_of_ne ?_
      rintro rfl
      cases hrange
    exact congrArg Host.Outcome.next (if_neg (by rw [hoffset]; exact Bool.false_ne_true))
  | _ => cases hrange

end Sys2Proof.Machine
end

section
/-! PROOF. Tile decode and cache update (`40_tile_decode.md`): the fields of a decoded entry in plain arithmetic, and
what a refresh leaves in the cache and in the dirty bits. -/

namespace Sys2Proof.Machine

/-! ## The tile caches of a refresh (R125) -/

/-- A tile after `CACHE_UPDATE`: decoded anew if it was dirty in a layer that exists, kept otherwise. -/
theorem cacheEntry_cacheUpdate {s : State} {L : Layer} {k : Nat} (hk : k < L.tiles)
    (hwf : Cells.wf TileEntry.zero L.tiles (s.cache.get L) = true) :
    (cacheUpdate s).cacheEntry L k =
      if L ∈ existingLayers s.cfg ∧ s.isDirty L k = true then decodeTile s L.variant (s.tileAddr L k)
      else s.cacheEntry L k := by
  rw [State.cacheEntry, cacheUpdate_get]
  by_cases hL : L ∈ existingLayers s.cfg
  · have hlayer := cacheEntry_cacheUpdateLayer s L k hwf
    rw [State.cacheEntry] at hlayer
    simp only [hL, if_true, true_and, hlayer, hk]
  · simp only [hL, if_false, false_and]
    rfl

/-- `CACHE_UPDATE` does not read the resolved scroll. -/
theorem cacheUpdate_scroll (s : State) (scroll : PerLayer ResolvedScroll) :
    cacheUpdate { s with scroll := scroll } = { cacheUpdate s with scroll := scroll } := by
  have hlayers := List.foldl_hom (l := existingLayers s.cfg) (init := s) (g₁ := cacheUpdateLayer)
    (g₂ := cacheUpdateLayer) (fun t : State => { t with scroll := scroll }) fun _ _ => rfl
  exact hlayers

/-- A non-empty refresh leaves the caches and dirty bits that `CACHE_UPDATE` gives in the state before it. -/
theorem partialRefresh_caches {s : State} {a b : Int} (hband : max a s.cfg.visTop < min b s.cfg.visEnd) (L : Layer)
    (k : Nat) :
    (partialRefresh a b s).isDirty L k = (cacheUpdate s).isDirty L k ∧
      (partialRefresh a b s).cacheEntry L k = (cacheUpdate s).cacheEntry L k := by
  obtain ⟨hempty, -⟩ | ⟨-, hr⟩ := partialRefresh_cases a b s
  · omega
  · rw [hr, refreshBand_eq, resolveScroll_frame, cacheUpdate_scroll]
    exact ⟨rfl, rfl⟩

/-- The layer that does not exist is the high layer without `Cfg.SPEEDUP` (`10_state.md` R38). -/
theorem not_mem_existingLayers_iff (c : Cfg) (L : Layer) :
    L ∉ existingLayers c ↔ L = .pf1h ∧ c.speedup = false := by
  rw [mem_existingLayers_iff, Classical.not_imp, Bool.not_eq_true]

/-- Settles O41: a refresh leaves what `CACHE_UPDATE` gives, which goes through every layer that exists. -/
theorem refreshDecodesDirtyTiles : Obligations.RefreshDecodesDirtyTiles := by
  intro s a b hcan hband L k hk
  rw [mapWidth_tiles] at hk
  obtain ⟨hdirty, hentry⟩ := partialRefresh_caches hband L k
  simp only [hdirty, hentry, isDirty_cacheUpdate, cacheEntry_cacheUpdate hk (hcan.cache L), variantOf_eq,
    ← not_mem_existingLayers_iff]
  by_cases hL : L ∈ existingLayers s.cfg
  · simp [hL]
  · simp [hL]

/-! ## The fields of a tile entry (R121 to R123) -/

/-- One bit of a byte, in plain arithmetic. -/
theorem getLsbD_eq_decide_div (x : Byte) (i : Nat) : x.getLsbD i = decide (x.toNat / 2 ^ i % 2 = 1) :=
  Nat.testBit_eq_decide_div_mod_eq

/-- The priority bit of `color` (R122, R123) is the upper half of its range. -/
theorem getLsbD_seven_iff (color : Byte) : color.getLsbD 7 = true ↔ 128 ≤ color.toNat := by
  have hlt := color.isLt
  rw [getLsbD_eq_decide_div, decide_eq_true_eq]
  omega

/-- The palette of a tile: the low six bits of `color`. -/
theorem paletteBits_toNat (color : Byte) : (color.extractLsb' 0 6).toNat = color.toNat % 64 := by
  rw [BitVec.extractLsb'_toNat, Nat.shiftRight_zero]

theorem prioB_eq (color : Byte) : prioB color = if 128 ≤ color.toNat then .splitTop8Pens else .normal := by
  simp only [prioB, getLsbD_seven_iff]

/-- `PrioA` is `PrioB` unless bit 0 of `flag_byte` is set, whose test comes first (R122). -/
theorem prioA_eq (color flag : Byte) :
    prioA color flag = if flag.toNat % 2 = 1 then .fullAboveAlt else prioB color := by
  simp only [prioA, prioB, getLsbD_eq_decide_div flag, pow_zero, Nat.div_one, decide_eq_true_eq]

/-- Settles O15, field by field; the two variants differ in the priority class alone. -/
theorem tileDecodeReadsFourBytes : Obligations.TileDecodeReadsFourBytes := by
  intro s v a
  refine ⟨toNat_bytePair .., paletteBits_toNat _, getLsbD_eq_decide_div _ 1, getLsbD_eq_decide_div _ 2, ?_⟩
  cases v with
  | a =>
    refine (prioA_eq ..).trans ?_
    simp only [prioB_eq, true_and]
  | b =>
    refine (prioB_eq _).trans ?_
    simp only [reduceCtorEq, false_and, if_false]

end Sys2Proof.Machine
end

section
/-! PROOF. VRAM access (`41_vram_access.md`): what a write leaves in VRAM and in the dirty bits, and what a read
answers. -/

namespace Sys2Proof.Machine

/-! ## The state after `VRAM_WR` (R136) -/

/-- The marking leaves VRAM alone, so a read sees the stored byte and, elsewhere, the bytes of before. -/
theorem vramByte_markDirty_setVramByte {s : State} (hwf : Memory.wf vramSize s.vram = true) (offset a : Half)
    (value : Byte) :
    (markDirty offset (s.setVramByte offset value)).vramByte a = if a = offset then value else s.vramByte a := by
  rw [markDirty_frame]
  exact State.vramByte_setVramByte hwf offset a value

/-- The store moves no bank pointer and sets no dirty bit, so the marks are those R137 and R138 name at the state
before. -/
theorem isDirty_markDirty_setVramByte (s : State) (offset : Half) (value : Byte) (L : Layer) (k : Nat) :
    (markDirty offset (s.setVramByte offset value)).isDirty L k = (s.isDirty L k || marksTile s offset L k) := by
  have hmarks : marksTile (s.setVramByte offset value) offset L k = marksTile s offset L k :=
    marksTile_congr (State.setVramByte_cfg ..) (State.setVramByte_lc ..) offset L k
  rw [isDirty_markDirty, hmarks, State.isDirty, State.setVramByte_dirty, State.isDirty]

/-- Settles O12: the store writes one byte, the marking dirty bits. -/
theorem vramWriteStoresAndMarks : Obligations.VramWriteStoresAndMarks := by
  intro s offset value hwf
  refine ⟨markDirty offset (s.setVramByte offset value), rfl, ?bytes, ?marks, ?frame⟩
  case bytes => exact fun a => vramByte_markDirty_setVramByte hwf offset a value
  case marks => exact isDirty_markDirty_setVramByte s offset value
  case frame => rw [markDirty_frame]; rfl

/-! ## The answer of `VRAM_RD` (R140) -/

/-- Settles O13: the command is `respond` with the byte, and `respond` writes the response alone. -/
theorem vramReadResponds : Obligations.VramReadResponds := by
  intro s offset
  rw [exec, execVramRd, State.respond]

end Sys2Proof.Machine
end

section
/-! PROOF. Playfield control (`42_pf_control.md` R150): which register `PFCTL_WR` names, and what the registers hold
after it. -/

namespace Sys2Proof.Machine

/-! ## The register an operand pair names (`30_encoding.md` R91, R95) -/

/-- `playfieldOfSel` inverts the numbering `selOf` (R91): no selector above 2 is in either. -/
theorem playfieldOfSel_eq_some_iff {sel : BitVec 4} {p : Playfield} : playfieldOfSel sel = some p ↔ sel = selOf p := by
  constructor
  case mp =>
    intro h
    apply BitVec.eq_of_toNat_eq
    unfold playfieldOfSel at h
    split at h
    case h_4 => cases h
    all_goals
      obtain rfl := Option.some.inj h
      assumption
  case mpr =>
    rintro rfl
    cases p <;> rfl

theorem reg8OfIndex_eq_some_iff {index : Half} {i : Fin 8} : reg8OfIndex index = some i ↔ index.toNat = i.val := by
  simp only [reg8OfIndex, Option.dite_none_right_eq_some, Option.some.injEq, Fin.ext_iff]
  exact ⟨fun ⟨_, h⟩ => h, fun h => ⟨h ▸ i.isLt, h⟩⟩

/-! ## The state after `PFCTL_WR` (R150) -/

/-- A register takes the value exactly when the selector names its playfield and the index names it. -/
theorem pfReg_of_exec_pfctlWr {s t : State} {layer : BitVec 4} {index : Half} {value : Byte}
    (h : exec (.pfctlWr layer index value) s = .next t) (p : Playfield) (i : Fin 8) :
    t.pfReg p i = if layer = selOf p ∧ index.toNat = i.val then value else s.pfReg p i := by
  obtain rfl := Host.Outcome.next.inj h
  simp only [← playfieldOfSel_eq_some_iff, ← reg8OfIndex_eq_some_iff]
  cases playfieldOfSel layer with
  | none => simp
  | some q =>
    cases reg8OfIndex index with
    | none => simp
    | some j => simp only [State.pfReg_setPfReg, Option.some.injEq, eq_comm]

/-- Settles O16: the registers by `pfReg_of_exec_pfctlWr`, the rest of the state by the frame of the command. -/
theorem pfControlWriteStores : Obligations.PfControlWriteStores := by
  intro s layer index value
  obtain ⟨t, ht, -⟩ := exec_next_cfg (.pfctlWr layer index value) s
  refine ⟨t, ht, pfReg_of_exec_pfctlWr ht, ?frame⟩
  case frame =>
    obtain ⟨regs, rfl⟩ := exec_frame ht
    rfl

end Sys2Proof.Machine
end

section
/-! PROOF. Master control (`43_master_control.md`): what `MCTL_WR` leaves in the registers, the latched layer control, the
dirty bits and the raster line. -/

namespace Sys2Proof.Machine

/-! ## The register written (R160) -/

/-- An index that names a register stores the byte there, then runs the register's effect. -/
theorem exec_mctlWr_register (i : Fin 8) (value : Byte) (s : State) :
    exec (.mctlWr (BitVec.ofNat 16 i.val) value) s = .next (masterEffect i value (s.setMasterReg i value)) := by
  have hi : reg8OfIndex (BitVec.ofNat 16 i.val) = some i :=
    reg8OfIndex_eq_some_iff.mpr (by rw [BitVec.toNat_ofNat]; omega)
  rw [exec, execMctlWr, hi]

/-- No effect writes a register, so the stored byte is the only change among them. -/
theorem masterReg_masterEffect_setMasterReg (i j : Fin 8) (value : Byte) (s : State) :
    (masterEffect i value (s.setMasterReg i value)).masterReg j = if j = i then value else s.masterReg j := by
  have hkept : (masterEffect i value (s.setMasterReg i value)).masterReg j = (s.setMasterReg i value).masterReg j := by
    rw [masterEffect_frame]; rfl
  rw [hkept, State.masterReg_setMasterReg]

/-- Registers 6 and 7 latch the raster line (R166). -/
theorem masterEffect_of_raster {i : Fin 8} (hi : i = 6 ∨ i = 7) (value : Byte) (s : State) :
    masterEffect i value s = updateRasterLine s := by
  obtain rfl | rfl := hi
  · rfl
  · rfl

/-- Registers 1, 3 and 5 have no effect (R161). -/
theorem masterEffect_of_reserved {i : Fin 8} (hi : i = 1 ∨ i = 3 ∨ i = 5) (value : Byte) (s : State) :
    masterEffect i value s = s := by
  obtain rfl | rfl | rfl := hi
  · rfl
  · rfl
  · rfl

/-- Settles O22: only the store is left of the write. -/
theorem reservedMasterRegistersOnlyStore : Obligations.ReservedMasterRegistersOnlyStore := by
  intro s i value hi
  refine ⟨_, exec_mctlWr_register i value s, fun j => masterReg_masterEffect_setMasterReg i j value s, ?frame⟩
  case frame =>
    rw [masterEffect_of_reserved hi]
    rfl

/-! ## Layer select (R163, R165) -/

/-- The layers a layer select marks are those of its playfield, the high one apart (decision D21). -/
theorem narrow_or_wide_iff {L : Layer} (hL : L ≠ .pf1h) (p : Playfield) :
    (L = p.narrow ∨ p.wide = some L) ↔ L.playfield = p := by
  constructor
  case mp =>
    rintro (rfl | hwide)
    · cases p <;> rfl
    · cases p <;> cases hwide <;> rfl
  case mpr =>
    rintro rfl
    exact (layer_of_playfield hL State.reset).1

/-- The latched wide flag is bit 2 of the byte; under the speed-up flag playfield 3 keeps its own (decision D21). -/
theorem selectWide_eq_ite (c : Cfg) (p : Playfield) (old : Bool) (value : Byte) :
    selectWide c p old value = if p = .pf3 ∧ c.speedup = true then old else value &&& 0x04 != 0 := by
  simp only [selectWide, wideBit_eq, Bool.and_eq_true, beq_iff_eq]

/-- Settles O18: the effect of register `2p` is the layer select of `p`. -/
theorem layerSelectLatchesAndMarks : Obligations.LayerSelectLatchesAndMarks := by
  intro s p value
  refine ⟨_, exec_mctlWr_register (selectReg p) value s,
    fun j => masterReg_masterEffect_setMasterReg (selectReg p) j value s, ?_⟩
  rw [masterEffect_selectReg]
  have hctl := layerCtl_layerSelect p p value (s.setMasterReg (selectReg p) value)
  rw [if_pos rfl] at hctl
  refine ⟨?ptr, ?enabled, ?rowscroll, ?wide, ?others, ?dirty, ?frame⟩
  case ptr => rw [hctl]; exact bankPtr_toNat value
  case enabled => rw [hctl]; exact selectEnabled_eq value
  case rowscroll => rw [hctl]; exact selectRowscroll_eq value
  case wide => rw [hctl]; exact selectWide_eq_ite ..
  case others =>
    intro q hq
    exact (layerCtl_layerSelect ..).trans (if_neg hq)
  case dirty =>
    intro L k hL
    rw [isDirty_layerSelect, hctl]
    simp only [narrow_or_wide_iff hL]
    rfl
  case frame =>
    rw [layerSelect_frame]
    rfl

/-- Settles O19: no effect marks the high layer, and an index above 7 writes nothing. -/
theorem bankMoveSparesHighLayer : Obligations.BankMoveSparesHighLayer := by
  intro s index value
  refine ⟨_, rfl, fun k => ?_⟩
  cases reg8OfIndex index with
  | some i =>
    exact congrArg (BitVec.getLsbD · k) (dirty_pf1h_masterEffect i value (s.setMasterReg i value))
  | none => rfl

/-! ## The raster line (R166, R167) -/

/-- Settles O20: the latch reads both bytes after the store and, beside the line, writes only the warning. -/
theorem rasterBytesLatchLine : Obligations.RasterBytesLatchLine := by
  intro s i value hi
  refine ⟨_, exec_mctlWr_register i value s, fun j => masterReg_masterEffect_setMasterReg i j value s, ?_⟩
  rw [masterEffect_of_raster hi]
  refine ⟨rasterLatched_updateRasterLine _, ?frame⟩
  case frame =>
    rw [updateRasterLine_eq]
    rfl

theorem rasterMismatch_iff (c : Cfg) (line : Int) :
    rasterMismatch c line = true ↔ 128 ≤ line ∧ c.rasterEnable = false := by
  simp only [rasterMismatch, Bool.and_eq_true, decide_eq_true_eq, Bool.not_eq_true']

/-- The latch sets the sticky flag and the pulse together, exactly for a line the machine cannot honour (R167). -/
theorem warning_updateRasterLine (s : State) :
    ((updateRasterLine s).warnRasterCfg, (updateRasterLine s).out.warn) =
      if 128 ≤ (updateRasterLine s).rasterIrqLine ∧ s.cfg.rasterEnable = false then (true, true)
      else (s.warnRasterCfg, s.out.warn) := by
  rw [updateRasterLine_eq]
  split
  case isTrue h => rw [(rasterMismatch_iff ..).mpr h]; rfl
  case isFalse h => rw [Bool.eq_false_iff.mpr (mt (rasterMismatch_iff ..).mp h)]; rfl

/-- Settles O21: the store leaves the configuration, the flag and the pulse to the latch. -/
theorem rasterLineMismatchWarns : Obligations.RasterLineMismatchWarns := by
  intro s i value hi
  refine ⟨_, exec_mctlWr_register i value s, ?_⟩
  rw [masterEffect_of_raster hi]
  exact warning_updateRasterLine (s.setMasterReg i value)

end Sys2Proof.Machine
end

section
/-! PROOF. Sprite control (`44_sprite_control.md`): what a swap leaves in the two sprite copies and what it raises, what
`SPR_WR` and `SPR_RD` do with the live copy, and which writes of `SPRCTL_WR` and `SPRBUF_TRIG` swap. -/

namespace Sys2Proof.Machine

/-! ## The swap (R180) -/

section

variable (clear : Bool) (s : State)

theorem sprBufByte_spriteSwap (a : Nat) : (spriteSwap clear s).sprBufByte a = s.sprLiveByte a := by
  rw [spriteSwap_eq]; rfl

theorem sprLiveByte_spriteSwap (a : Nat) :
    (spriteSwap clear s).sprLiveByte a = if clear then 0x00 else s.sprLiveByte a := by
  rw [spriteSwap_eq]
  cases clear with
  | true => exact Memory.read_nil a
  | false => rfl

theorem spriteSwap_out :
    (spriteSwap clear s).out = { s.out with irqs := s.out.irqs ++ [.spriteBufferComplete] } := by
  rw [spriteSwap_eq]

theorem spriteReg_spriteSwap (i : Fin 9) : (spriteSwap clear s).spriteReg i = s.spriteReg i := by
  rw [spriteSwap_eq]; rfl

end

/-- Settles O26: the two copies, the request and the frame, each as `spriteSwap_eq` gives it. -/
theorem spriteSwapCopiesAllBytes : Obligations.SpriteSwapCopiesAllBytes := by
  intro s clear
  refine ⟨sprBufByte_spriteSwap clear s, sprLiveByte_spriteSwap clear s, spriteSwap_out clear s, ?frame⟩
  case frame => rw [spriteSwap_eq]

/-! ## The live copy (R183, R184) -/

/-- A byte of the live copy takes the value exactly when the offset is inside the copy and names it. -/
theorem sprLiveByte_of_exec_sprWr {s t : State} {offset : Half} {value : Byte}
    (hwf : Memory.wf sprSize s.sprLive = true) (h : exec (.sprWr offset value) s = .next t) (a : Nat) :
    t.sprLiveByte a = if a = offset.toNat ∧ a ≤ 0x7FF then value else s.sprLiveByte a := by
  obtain rfl := Host.Outcome.next.inj h
  by_cases hin : offset.toNat ≤ 0x7FF
  case pos =>
    have hnamed : a = offset.toNat ∧ a ≤ 0x7FF ↔ a = offset.toNat := and_iff_left_of_imp (· ▸ hin)
    simp only [if_pos hin, State.sprLiveByte_setSprLiveByte hwf, hnamed]
  case neg =>
    have hnone : ¬ (a = offset.toNat ∧ a ≤ 0x7FF) := fun ⟨hoffset, hle⟩ => hin (hoffset ▸ hle)
    rw [if_neg hin, if_neg hnone]

/-- Settles O23: the bytes by `sprLiveByte_of_exec_sprWr`, the rest of the state by the frame of the command. -/
theorem spriteWriteStoresLive : Obligations.SpriteWriteStoresLive := by
  intro s offset value hwf
  obtain ⟨t, ht, -⟩ := exec_next_cfg (.sprWr offset value) s
  refine ⟨t, ht, sprLiveByte_of_exec_sprWr hwf ht, ?frame⟩
  case frame =>
    obtain ⟨live, rfl⟩ := exec_frame ht
    rfl

/-- Settles O24: the command is `respond` with the byte, and `respond` writes the response alone. -/
theorem spriteReadResponds : Obligations.SpriteReadResponds := by
  intro s offset
  rw [exec, execSprRd, State.respond]

/-! ## Sprite control (R176 to R178) -/

theorem reg9OfOffset_eq_some_iff {offset : Half} {i : Fin 9} :
    reg9OfOffset offset = some i ↔ offset.toNat = i.val := by
  simp only [reg9OfOffset, Option.dite_none_right_eq_some, Option.some.injEq, Fin.ext_iff]
  exact ⟨fun ⟨_, h⟩ => h, fun h => ⟨h ▸ i.isLt, h⟩⟩

/-- An offset that names a register stores the byte there; register 8 on chip 1 then swaps and clears. -/
theorem exec_sprctlWr_register (i : Fin 9) (value : Byte) (s : State) :
    exec (.sprctlWr (BitVec.ofNat 16 i.val) value) s =
      .next (if i = 8 ∧ s.cfg.spriteChip = .one then spriteSwap true (s.setSpriteReg i value)
        else s.setSpriteReg i value) := by
  have hi : reg9OfOffset (BitVec.ofNat 16 i.val) = some i :=
    reg9OfOffset_eq_some_iff.mpr (by rw [BitVec.toNat_ofNat]; omega)
  simp only [exec, execSprctlWr, hi, Bool.and_eq_true, beq_iff_eq, Fin.ext_iff, Fin.coe_ofNat_eq_mod]

/-- Settles O25: outside the trigger of chip 1 only the store is left of the write. -/
theorem spriteControlWriteStores : Obligations.SpriteControlWriteStores := by
  intro s i value hchip
  have hquiet : ¬ (i = 8 ∧ s.cfg.spriteChip = .one) := by
    rintro ⟨hi, hone⟩
    cases (hchip hi).symm.trans hone
  refine ⟨s.setSpriteReg i value, ?runs, fun j => State.spriteReg_setSpriteReg s i j value, rfl⟩
  case runs => rw [exec_sprctlWr_register, if_neg hquiet]

/-- Settles O27: the trigger of chip 1 is the clearing swap of the state with the byte stored. -/
theorem chipOneSwapCopiesAndClears : Obligations.ChipOneSwapCopiesAndClears := by
  intro s value hone
  refine ⟨spriteSwap true (s.setSpriteReg 8 value), ?runs, ?regs, sprBufByte_spriteSwap true _,
    sprLiveByte_spriteSwap true _, spriteSwap_out true _, ?frame⟩
  case runs => exact (exec_sprctlWr_register 8 value s).trans (by rw [if_pos ⟨rfl, hone⟩])
  case regs =>
    intro j
    rw [spriteReg_spriteSwap, State.spriteReg_setSpriteReg]
  case frame => rw [spriteSwap_eq]; rfl

/-! ## The buffer-trigger port (R179) -/

/-- The port swaps without clearing at offset 0 on chip 0, whatever the value, and does nothing else. -/
theorem exec_sprbufTrig (offset : Half) (value : Byte) (s : State) :
    exec (.sprbufTrig offset value) s =
      .next (if offset = 0 ∧ s.cfg.spriteChip = .zero then spriteSwap false s else s) := by
  simp only [exec, execSprbufTrig, Bool.and_eq_true, beq_iff_eq]

/-- Settles O28: the trigger of chip 0 is the swap that keeps the live copy. -/
theorem chipZeroTriggerCopies : Obligations.ChipZeroTriggerCopies := by
  intro s value hzero
  refine ⟨spriteSwap false s, ?runs, sprBufByte_spriteSwap false s, sprLiveByte_spriteSwap false s,
    spriteSwap_out false s, ?frame⟩
  case runs => rw [exec_sprbufTrig, if_pos ⟨rfl, hzero⟩]
  case frame => rw [spriteSwap_eq]; rfl

/-- Settles O29: another offset, or chip 1, fails the test of the port. -/
theorem otherTriggersDoNothing : Obligations.OtherTriggersDoNothing := by
  intro s offset value hother
  have hquiet : ¬ (offset = 0 ∧ s.cfg.spriteChip = .zero) := by
    rintro ⟨hoffset, hzero⟩
    obtain hne | hone := hother
    · exact hne hoffset
    · cases hzero.symm.trans hone
  rw [exec_sprbufTrig, if_neg hquiet]

end Sys2Proof.Machine
end

section
/-! PROOF. The partial refresh (`45_partial_refresh.md`): what it writes, the scroll it resolves, and the pixels of the
band, pass by pass against the nine cases of R209. -/

namespace Sys2Proof.Machine

/-! ## What a refresh writes (R190 to R193, R213) -/

/-- Settles O39: an empty clipped band excludes the other outcome of `partialRefresh_cases`. -/
theorem emptyBandHasNoEffect : Obligations.EmptyBandHasNoEffect := by
  intro s a b hempty
  obtain ⟨-, h⟩ | ⟨hband, -⟩ := partialRefresh_cases a b s
  · exact h
  · omega

/-- A non-empty band is drawn. -/
theorem partialRefresh_of_band {s : State} {a b : Int} (hband : max a s.cfg.visTop < min b s.cfg.visEnd) :
    partialRefresh a b s = refreshBand (max a s.cfg.visTop) (min b s.cfg.visEnd) b s := by
  obtain ⟨hempty, -⟩ | ⟨-, h⟩ := partialRefresh_cases a b s
  · omega
  · exact h

/-- Settles O44: of `rs`, step 7 writes the last redrawn line alone. -/
theorem refreshFrame : Obligations.RefreshFrame := by
  intro s a b
  obtain ⟨-, h⟩ | ⟨-, h⟩ := partialRefresh_cases a b s
  · simp only [h]
  · simp only [h, refreshBand_eq]

/-- Settles O43: the clip rectangle of R192 is the clipped band's rows and the visible columns. -/
theorem refreshWritesOnlyItsBand : Obligations.RefreshWritesOnlyItsBand := by
  intro s a b y x hcfg hfb hx hout
  obtain ⟨-, h⟩ | ⟨-, h⟩ := partialRefresh_cases a b s
  · rw [h]
  · rw [h, refreshBand_eq]
    refine fbPixel_compositeFb_outside _ (bandClip_narrow hcfg _ _) (bandClip_rows hcfg _ (by omega)) hfb hx ?_
    rwa [bandClip_contains (by omega), and_assoc]

/-! ## The resolved scroll (R195 to R198) -/

theorem layerShift_eq (L : Layer) : layerShift L = scrollBias L.playfield + L.wideAdd := by cases L <;> rfl

/-- `ResolveX` in plain arithmetic (R197). -/
theorem resolveX_toNat (L : Layer) (raw : Half) :
    ((resolveX L raw).toNat : Int) = ((raw.toNat : Int) + layerShift L) % 65536 := by
  rw [resolveX, BitVec.toNat_ofInt, layerShift_eq, add_assoc]
  exact Int.toNat_of_nonneg (Int.emod_nonneg _ (by decide))

section

variable {s : State} {L : Layer}

/-- Y is scalar, in both modes (R198). -/
theorem resolveLayer_y (s : State) (L : Layer) : ((resolveLayer s L).scroll.get L).y = s.scrollY L.playfield := by
  rw [resolveLayer_scroll]
  split
  · rfl
  · rfl

theorem resolveLayer_rows (s : State) (L : Layer) :
    ((resolveLayer s L).scroll.get L).rows = if (s.layerCtl L.playfield).rowscroll then .all512 else .one := by
  rw [resolveLayer_scroll]
  split
  · rfl
  · rfl

/-- Under rowscroll each of the 512 rows comes from the table (R196). -/
theorem rsx_resolveLayer_table (hwf : Cells.wf (0 : Half) 512 (s.scroll.get L).x = true)
    (hrow : (s.layerCtl L.playfield).rowscroll = true) {r : Nat} (hr : r < 512) :
    (resolveLayer s L).rsx L r = resolveX L (s.rowEntry L.playfield r) := by
  rw [State.rsx, resolveLayer_scroll, if_pos hrow,
    Cells.get_update List.pairwise_lt_range ((Cells.wf_iff _ _ _).mp hwf).1, if_pos (List.mem_range.mpr hr)]

/-- Without rowscroll row 0 comes from the registers (R196). -/
theorem rsx_resolveLayer_register (hwf : Cells.wf (0 : Half) 512 (s.scroll.get L).x = true)
    (hrow : (s.layerCtl L.playfield).rowscroll = false) :
    (resolveLayer s L).rsx L 0 = resolveX L (s.scrollX L.playfield) := by
  rw [State.rsx, resolveLayer_scroll, if_neg (Bool.eq_false_iff.mp hrow), Cells.get_set hwf, if_pos rfl]

/-- A non-empty refresh leaves a layer that exists the scroll that `RESOLVE_SCROLL` of the layer gives. -/
theorem scroll_partialRefresh {a b : Int} (hband : max a s.cfg.visTop < min b s.cfg.visEnd)
    (hL : L ∈ existingLayers s.cfg) : (partialRefresh a b s).scroll.get L = (resolveLayer s L).scroll.get L := by
  rw [partialRefresh_of_band hband, refreshBand_eq]
  exact (resolveScroll_get s L).trans (if_pos hL)

end

/-- Settles O40: the two modes of R196, with the word of R66 and the sum of R197 in plain arithmetic. -/
theorem refreshResolvesScroll : Obligations.RefreshResolvesScroll := by
  intro s a b hcan hband L hL
  have hscroll := scroll_partialRefresh hband ((mem_existingLayers_iff s.cfg L).mpr hL)
  have hrsx : ∀ r, (partialRefresh a b s).rsx L r = (resolveLayer s L).rsx L r := fun r => by
    rw [State.rsx, hscroll, State.rsx]
  simp only [hscroll, hrsx, playfieldOf_eq, resolveLayer_y, resolveLayer_rows, true_and]
  cases hrow : (s.layerCtl L.playfield).rowscroll with
  | true =>
    refine ⟨rfl, fun r hr => ?_⟩
    rw [rsx_resolveLayer_table (hcan.scroll L) hrow hr, resolveX_toNat, rowWord_eq]
  | false =>
    refine ⟨rfl, ?_⟩
    rw [rsx_resolveLayer_register (hcan.scroll L) hrow, resolveX_toNat]

/-! ## The pixel of each pass, as a case of R209 -/

/-- The priority of the pixel a layer shows (R204). -/
theorem isHigh_shown_iff (s : State) (L : Layer) (x y : Nat) :
    isHigh (shownEntry s L x y) (shownPen s L x y) = true ↔ ShowsHigh s L x y := isHigh_iff ..

/-- The FRONT pass of a playfield draws its high pixels (R205). -/
theorem layerPixel_front (s : State) (p : Playfield) (x y : Nat) :
    (if (s.layerCtl p).enabled then layerPixel s p .front x y else none) = highPixel s p x y := by
  simp only [layerPixel, layerSample_eq, ← shownLayer_eq, isDrawn, isHigh_shown_iff, highPixel,
    tilePixelOf, ← ite_and]

/-- The BACK pass of a playfield draws its low pixels, pen 0 in playfield 3 only (R205). -/
theorem layerPixel_back (s : State) (p : Playfield) (x y : Nat) :
    (if (s.layerCtl p).enabled then layerPixel s p .back x y else none) = lowPixel s p (p == .pf3) x y := by
  have hpen (pen : BitVec 4) : pen ≠ 0 ↔ pen.toNat ≠ 0 := not_congr BitVec.toNat_inj.symm
  simp only [layerPixel, layerSample_eq, ← shownLayer_eq, isDrawn, Bool.and_eq_true, Bool.not_eq_true',
    ← Bool.not_eq_true, isHigh_shown_iff, Bool.or_eq_true, bne_iff_ne, hpen, lowPixel, tilePixelOf, ← ite_and]

/-- Every pixel of an enabled playfield 3 is high or low: pen 0 counts as low (R205). -/
theorem highPixel_or_lowPixel_isSome {s : State} (hen : (s.layerCtl .pf3).enabled = true) (x y : Nat) :
    (highPixel s .pf3 x y).isSome ∨ (lowPixel s .pf3 true x y).isSome := by
  by_cases hhigh : ShowsHigh s (shownLayer s .pf3) x y
  · exact .inl (by rw [highPixel, if_pos ⟨hen, hhigh⟩]; rfl)
  · exact .inr (by rw [lowPixel, if_pos ⟨hen, hhigh, .inr rfl⟩]; rfl)

/-! ## The pixel of a sprite pass -/

/-- The last record visited is the one of offset 0 (`46_sprite_engine.md` R230, R237). -/
theorem reverse_visitedFrom (s : State) (n : Nat) :
    (visitedFrom s n).reverse = (List.range n).map fun k => decodeSprite s (8 * k) := by
  induction n with
  | zero => rfl
  | succ n ih => rw [visitedFrom, List.reverse_cons, ih, List.range_succ, List.map_append]; rfl

theorem inPass_iff (above : Bool) (r : SpriteRecord) :
    r.inPass above = true ↔ r.x ≠ 0 ∧ r.y ≠ 0 ∧ r.priorityAboveAll = above := by
  simp only [SpriteRecord.inPass, SpriteRecord.onScreen, Bool.and_eq_true, bne_iff_ne, beq_iff_eq, and_assoc]

/-- The pixel of a record, whichever of its cells is drawn last: they do not overlap (`46_sprite_engine.md` R238). -/
theorem recordPixel_eq (c : Cfg) (r : SpriteRecord) (x y : Nat) :
    ((spriteBlits c r).reverse.findSome? fun b => blitPixel c b x y) = recordPixel c r x y := by
  simp only [findSome_spriteBlits_reverse, recordPixel, cellPixel_eq]

/-- What is found first in the lists of the kept elements is found first element by element. -/
theorem findSome_flatMap_filter {α β γ : Type} (keep : α → Bool) (g : α → List β) (f : β → Option γ) (l : List α) :
    ((l.filter keep).flatMap g).findSome? f = l.findSome? fun a => if keep a then (g a).findSome? f else none := by
  induction l with
  | nil => rfl
  | cons a l ih =>
    rw [List.findSome?_cons, ← ih]
    cases hkeep : keep a with
    | true =>
      rw [List.filter_cons_of_pos hkeep, List.flatMap_cons, List.findSome?_append, if_pos rfl]
      cases (g a).findSome? f <;> rfl
    | false => rw [List.filter_cons_of_neg (Bool.eq_false_iff.mp hkeep)]; rfl

/-- The last cell of a sprite pass that covers a position is one of the lowest-offset record that does, since records
are drawn from the highest offset down (`46_sprite_engine.md` R237). -/
theorem findSome_passBlits_reverse (s : State) (above : Bool) (x y : Nat) :
    ((passBlits s above).reverse.findSome? fun b => blitPixel s.cfg b x y) = spritePixel s above x y := by
  rw [passBlits, List.reverse_flatMap, ← List.filter_reverse, visitedRecords, reverse_visitedFrom,
    findSome_flatMap_filter, List.findSome?_map]
  simp only [Function.comp_def, recordPixel_eq, inPass_iff, spritePixel]

/-! ## The composite at a position of the clip rectangle -/

section

variable (s : State) {clip : Clip} {fb : Cells Pixel} {y x : Nat}

/-- A pass of an enabled playfield puts the pixels it draws, and leaves the old one where it draws none. -/
theorem fbPixel_pass (hc : clip.Narrow) (hx : x < 512) (hin : clip.contains x y = true) (pass : Pass) (p : Playfield)
    (hfb : fbWf fb = true) :
    fbPixel (drawIfEnabled s clip pass p fb) y x =
      (if (s.layerCtl p).enabled then layerPixel s p pass x y else none).getD (fbPixel fb y x) := by
  rw [fbPixel_drawIfEnabled s hc _ _ hfb hx, hin, Bool.true_and]
  split
  · rfl
  · rfl

/-- Pass a puts the low pixel of playfield 3; where there is none, the old pixel stays under an enabled playfield and
`BG` is filled in under a disabled one. -/
theorem fbPixel_bottom (hc : clip.Narrow) (hx : x < 512) (hin : clip.contains x y = true) (hfb : fbWf fb = true) :
    fbPixel (drawBottom s clip fb) y x =
      (lowPixel s .pf3 true x y).getD (if (s.layerCtl .pf3).enabled then fbPixel fb y x else Pixel.bg) := by
  have hlow : (if (s.layerCtl .pf3).enabled then layerPixel s .pf3 .back x y else none) = lowPixel s .pf3 true x y :=
    layerPixel_back s .pf3 x y
  rw [fbPixel_drawBottom s hc hfb hx, if_pos hin, ← hlow]
  split
  · rfl
  · rfl

/-- A sprite pass puts the pixel of its lowest-offset record there, if there is one. -/
theorem fbPixel_sprites (hc : clip.Narrow) (hr : clip.rowHi ≤ 512) (hx : x < 512) (hin : clip.contains x y = true)
    (above : Bool) (hfb : fbWf fb = true) :
    fbPixel (drawSprites s clip above fb) y x = (spritePixel s above x y).getD (fbPixel fb y x) := by
  rw [fbPixel_drawSprites s hc hr above hfb hx, if_pos hin, findSome_passBlits_reverse]

/-- The six passes leave the first of the nine cases: a pass overwrites what the ones before it put (R209). -/
theorem fbPixel_compositeFb (hc : clip.Narrow) (hr : clip.rowHi ≤ 512) (hx : x < 512)
    (hin : clip.contains x y = true) (hfb : fbWf fb = true) :
    fbPixel (compositeFb s clip fb) y x = compositePixel s x y := by
  have hbottom := fbWf_drawBottom s hc hr hfb
  have hback2 := fbWf_drawIfEnabled s hc hr .back .pf2 hbottom
  have hback1 := fbWf_drawIfEnabled s hc hr .back .pf1 hback2
  have hnormal := fbWf_drawSprites s hc hr false hback1
  have hfront3 := fbWf_drawIfEnabled s hc hr .front .pf3 hnormal
  have hfront2 := fbWf_drawIfEnabled s hc hr .front .pf2 hfront3
  have hfront1 := fbWf_drawIfEnabled s hc hr .front .pf1 hfront2
  rw [compositeFb, fbPixel_sprites s hc hr hx hin true hfront1, fbPixel_pass s hc hx hin .front .pf1 hfront2,
    fbPixel_pass s hc hx hin .front .pf2 hfront3, fbPixel_pass s hc hx hin .front .pf3 hnormal,
    fbPixel_sprites s hc hr hx hin false hback1, fbPixel_pass s hc hx hin .back .pf1 hback2,
    fbPixel_pass s hc hx hin .back .pf2 hbottom, fbPixel_bottom s hc hx hin hfb]
  simp only [layerPixel_front, layerPixel_back, compositePixel, Option.orElse_eq_orElse, Option.orElse_eq_or,
    Option.getD_or]
  cases hen : (s.layerCtl .pf3).enabled with
  | false => rfl
  | true =>
    -- the pixel under pass a is never seen: case 4 or case 8 exists
    obtain hhigh | hlow := highPixel_or_lowPixel_isSome hen x y
    · obtain ⟨px, hpx⟩ := Option.isSome_iff_exists.mp hhigh
      simp only [hpx, Option.getD_some]
    · obtain ⟨px, hpx⟩ := Option.isSome_iff_exists.mp hlow
      simp only [hpx, Option.getD_some]
      rfl

end

/-- Settles O42: the refresh composites the state `CACHE_UPDATE` leaves, and the nine cases of that state are those of
the state after the refresh, for they read neither the framebuffer nor `rs`. -/
theorem refreshShowsTopmostPixel : Obligations.RefreshShowsTopmostPixel := by
  intro s a b y x hcfg hfb htop hend hleft hright
  have hx : x < 512 := by
    simp only [Cfg.wf, Bool.and_eq_true, decide_eq_true_eq] at hcfg
    omega
  have hin : (bandClip s.cfg (max a s.cfg.visTop) (min b s.cfg.visEnd)).contains x y = true :=
    (bandClip_contains (by omega) x y).mpr ⟨⟨htop, hend⟩, hleft, hright⟩
  have hcompose := fbPixel_compositeFb (cacheUpdate (resolveScroll s)) (bandClip_narrow hcfg _ _)
    (bandClip_rows hcfg _ (by omega)) hx hin hfb
  have hfbSame : (cacheUpdate (resolveScroll s)).fb = s.fb := by rw [cacheUpdate_frame, resolveScroll_frame]
  rw [partialRefresh_of_band (by omega), refreshBand, composite, hfbSame]
  exact hcompose.trans (compositePixel_fb_rs ..).symm

end Sys2Proof.Machine
end

section
/-! PROOF. The sprite engine (`46_sprite_engine.md`): the fields of a record in plain arithmetic, the active list in
visiting order, the cells of a pass, and the running loops of R230 against their closed form. -/

namespace Sys2Proof.Machine

/-! ## The fields of a record (R232) -/

/-- A bit field, in plain arithmetic. -/
theorem extractLsb'_toNat_div {w : Nat} (x : BitVec w) (i n : Nat) :
    (x.extractLsb' i n).toNat = x.toNat / 2 ^ i % 2 ^ n := by
  rw [BitVec.extractLsb'_toNat, Nat.shiftRight_eq_div_pow]

/-- A coordinate: the low nine bits of a byte pair. -/
theorem coordinate_toNat (hi lo : Byte) :
    ((hi ++ lo : Half).extractLsb' 0 9).toNat = (hi.toNat * 256 + lo.toNat) % 512 := by
  rw [extractLsb'_toNat_div, toNat_bytePair, pow_zero, Nat.div_one]
  rfl

/-- Settles O45, field by field. -/
theorem spriteDecodeReadsEightBytes : Obligations.SpriteDecodeReadsEightBytes := by
  intro s offs b r
  have habove : r.priorityAboveAll = decide (128 ≤ b 4) := by
    rw [Bool.eq_iff_iff, decide_eq_true_eq]
    exact getLsbD_seven_iff _
  have hflipX : r.flipX = decide (b 5 % 2 = 1) := by
    have hbit := getLsbD_eq_decide_div (s.sprBufByte (offs + 5)) 0
    rwa [pow_zero, Nat.div_one] at hbit
  exact ⟨coordinate_toNat .., coordinate_toNat .., toNat_bytePair .., paletteBits_toNat _, habove, hflipX,
    getLsbD_eq_decide_div _ 1, congrArg (2 ^ ·) (extractLsb'_toNat_div _ 1 2),
    congrArg (2 ^ ·) (extractLsb'_toNat_div _ 3 2)⟩

/-! ## The active list (R231, R237) -/

/-- The natural difference of the model does not wrap: `sprctl[0]` is a byte. -/
theorem listStart_eq (s : State) :
    listStart s =
      (match s.cfg.spriteChip with
        | .zero => ((0x100 - ((s.spriteReg 0).toNat : Int)) % 0x100) * 8 - 8
        | .one => 0x7F8) := by
  have hbyte := (s.spriteReg 0).isLt
  rw [listStart]
  cases s.cfg.spriteChip with
  | zero => dsimp only; omega
  | one => rfl

/-- The list ends with a whole record, or is empty at -8: the count is an exact quotient. -/
theorem recordCount_mul_eight (s : State) : (recordCount s : Int) * 8 = listStart s + 8 := by
  rw [recordCount, listStart_eq]
  cases s.cfg.spriteChip with
  | zero => dsimp only; omega
  | one => rfl

/-- The records visited are those of offsets `8 n`, the highest first. -/
theorem visitedRecords_eq (s : State) :
    visitedRecords s = ((List.range (recordCount s)).map fun n => decodeSprite s (8 * n)).reverse := by
  rw [visitedRecords, ← reverse_visitedFrom, List.reverse_reverse]

/-- Settles O46. -/
theorem spriteListIsVisitedDescending : Obligations.SpriteListIsVisitedDescending :=
  fun s => ⟨listStart_eq s, recordCount_mul_eight s, visitedRecords_eq s⟩

/-! ## The cells of a pass (R236, R240) -/

theorem mem_visitedRecords_iff {s : State} {r : SpriteRecord} :
    r ∈ visitedRecords s ↔ ∃ n, n < recordCount s ∧ decodeSprite s (8 * n) = r := by
  simp only [visitedRecords_eq, List.mem_reverse, List.mem_map, List.mem_range]

/-- The cells of a pass are those of the visited records that belong to it. -/
theorem mem_passBlits_iff {s : State} {above : Bool} {b : Blit} :
    b ∈ passBlits s above ↔ ∃ r ∈ visitedRecords s, r.inPass above = true ∧ b ∈ spriteBlits s.cfg r := by
  simp only [passBlits, List.mem_flatMap, List.mem_filter, and_assoc]

/-- Settles O47: a visited record is the one of an offset below the list's end, and it is in the pass exactly when it
is on screen and its priority bit selects the pass. -/
theorem passBlitsItsOnScreenRecords : Obligations.PassBlitsItsOnScreenRecords := by
  intro s above b
  rw [mem_passBlits_iff]
  constructor
  · rintro ⟨r, hr, hpass, hb⟩
    obtain ⟨n, hn, rfl⟩ := mem_visitedRecords_iff.mp hr
    obtain ⟨hx, hy, habove⟩ := (inPass_iff above _).mp hpass
    exact ⟨n, hn, hx, hy, habove, hb⟩
  · rintro ⟨n, hn, hx, hy, habove, hb⟩
    exact ⟨_, mem_visitedRecords_iff.mpr ⟨n, hn, rfl⟩, (inPass_iff above _).mpr ⟨hx, hy, habove⟩, hb⟩

/-! ## The running loops and their closed form (R230, R233, R234, R238) -/

/-- Where column `i` of a record stands (R233). -/
def SpriteRecord.columnX (r : SpriteRecord) (i : Nat) : Int :=
  r.screenX + 16 * (if r.flipX then (r.xCells : Int) - 1 - i else i)

/-- The pattern of column `i`, row `j`, counted from the record's base pattern (R234). -/
def SpriteRecord.patternStep (c : Cfg) (r : SpriteRecord) (i j : Nat) : Int :=
  c.sprColStride * i + (if r.flipY then (j : Int) else (r.yCells : Int) - 1 - j)

theorem cellOf_eq (c : Cfg) (r : SpriteRecord) (i j : Nat) :
    cellOf c r i j =
      { pattern := BitVec.ofInt 16 ((r.patternBase.toNat : Int) + r.patternStep c i j), paletteId := r.paletteId,
        flipX := r.flipX, flipY := r.flipY, x := r.columnX i, y := r.screenY - 16 * j } := by
  rw [cellOf, add_assoc]; rfl

/-- What the outer loop adds to `x` after a column. -/
theorem SpriteRecord.columnX_succ (r : SpriteRecord) (i : Nat) :
    r.columnX (i + 1) = if r.flipX then r.columnX i - 16 else r.columnX i + 16 := by
  unfold columnX
  split <;> push_cast <;> ring

/-- What the inner loop adds to the pattern after a row. -/
theorem SpriteRecord.patternStep_succ (c : Cfg) (r : SpriteRecord) (i j : Nat) :
    r.patternStep c i (j + 1) = if r.flipY then r.patternStep c i j + 1 else r.patternStep c i j - 1 := by
  unfold patternStep
  split <;> push_cast <;> ring

/-- Where the outer loop starts. -/
theorem SpriteRecord.columnX_zero (r : SpriteRecord) :
    r.columnX 0 = if r.flipX then r.screenX + 16 * ((r.xCells : Int) - 1) else r.screenX := by
  unfold columnX
  split <;> simp

/-- Where the inner loop starts in column `i`. -/
theorem SpriteRecord.patternStep_zero (c : Cfg) (r : SpriteRecord) (i : Nat) :
    r.patternStep c i 0 =
      if r.flipY then c.sprColStride * i else c.sprColStride * i + ((r.yCells : Int) - 1) := by
  unfold patternStep
  split <;> simp

/-- The inner loop from row `j` on: its running step is the closed form's at every row. -/
theorem columnBlits_eq_map_cellOf (c : Cfg) (r : SpriteRecord) (i n j : Nat) :
    columnBlits r (r.columnX i) n j (r.patternStep c i j) = (List.range' j n).map (cellOf c r i) := by
  induction n generalizing j with
  | zero => rfl
  | succ n ih =>
    rw [columnBlits, ← r.patternStep_succ, ← Nat.cast_succ, ih, List.range'_succ, List.map_cons, cellOf_eq]

/-- The outer loop from column `i` on: its running `x` is the closed form's at every column. -/
theorem spriteColumns_eq_flatMap_cellOf (c : Cfg) (r : SpriteRecord) (n i : Nat) :
    spriteColumns c r n i (r.columnX i) =
      (List.range' i n).flatMap fun k => (List.range r.yCells).map (cellOf c r k) := by
  induction n generalizing i with
  | zero => rfl
  | succ n ih =>
    have hcolumn := columnBlits_eq_map_cellOf c r i r.yCells 0
    rw [Nat.cast_zero, ← List.range_eq_range'] at hcolumn
    rw [spriteColumns, ← r.columnX_succ, ← r.patternStep_zero, hcolumn, ← Nat.cast_succ, ih, List.range'_succ,
      List.flatMap_cons]

/-- Settles O48: both loops from their first cell on. -/
theorem spriteCellsInClosedForm : Obligations.SpriteCellsInClosedForm := by
  intro c r
  have hloops := spriteColumns_eq_flatMap_cellOf c r r.xCells 0
  rw [r.columnX_zero, Nat.cast_zero, ← List.range_eq_range'] at hloops
  exact hloops

end Sys2Proof.Machine
end

section
/-! PROOF. The raster state machine (`47_raster_fsm.md`): the next state of a tick branch by branch, what a tick leaves
in `rs`, and the count of the bands over a frame. -/

namespace Sys2Proof.Machine

/-! ## What a refresh leaves to its tick -/

/-- Of `rs` a refresh writes the last redrawn line alone (`45_partial_refresh.md` R190). -/
theorem partialRefresh_keeps_rs (a b : Int) (s : State) :
    (partialRefresh a b s).rs = { s.rs with lastRedrawnLine := (partialRefresh a b s).rs.lastRedrawnLine } :=
  congrArg (·.rs) (refreshFrame s a b)

theorem partialRefresh_out (a b : Int) (s : State) : (partialRefresh a b s).out = s.out :=
  congrArg (·.out) (partialRefresh_frame a b s)

/-- The frame of a drawing tick, whatever `rs` it refreshes with and whatever `rs` and output it then writes. -/
theorem partialRefresh_tick_frame (a b : Int) (r r' : RasterState) (o : Output) (s : State) :
    { partialRefresh a b { s with rs := r } with rs := r', out := o } =
      { s with
        cache := (partialRefresh a b s).cache
        dirty := (partialRefresh a b s).dirty
        scroll := (partialRefresh a b s).scroll
        fb := (partialRefresh a b s).fb
        rs := r'
        out := o } := by
  rw [partialRefresh_rs, partialRefresh_frame]

/-! ## The branches of a tick (R253 to R255) -/

section

variable (line : Half) (s : State)

@[simp] theorem tickRaster_rs : (tickRaster line s).rs = { s.rs with lastRedrawnLine := line + 1 } := by
  have hnext : BitVec.ofNat 16 (line.toNat + 1) = line + 1 := by bv_omega
  simp only [tickRaster, State.raiseIrq_rs]
  rw [partialRefresh_keeps_rs, hnext]

@[simp] theorem tickRaster_out : (tickRaster line s).out = { s.out with irqs := s.out.irqs ++ [.raster] } := by
  simp only [tickRaster, State.raiseIrq_out, partialRefresh_out]

@[simp] theorem tickVblank_rs : (tickVblank s).rs = { s.rs with lastRedrawnLine := 248, vblankFlag := true } := by
  simp only [tickVblank, State.raiseIrq_rs]
  rw [partialRefresh_keeps_rs]

@[simp] theorem tickVblank_out : (tickVblank s).out = { s.out with irqs := s.out.irqs ++ [.vblank] } := by
  simp only [tickVblank, State.raiseIrq_out, partialRefresh_out]

@[simp] theorem tickEndOfFrame_rs :
    (tickEndOfFrame s).rs = { s.rs with vblankFlag := false, lastRedrawnLine := 0 } := rfl

@[simp] theorem tickEndOfFrame_out : (tickEndOfFrame s).out = s.out := rfl

@[simp] theorem tickRecord_cfg : (tickRecord line s).cfg = s.cfg := rfl

@[simp] theorem tickRecord_rs :
    (tickRecord line s).rs = { s.rs with currentScanline := line, rasterMachineActive := true } := rfl

@[simp] theorem tickRecord_out : (tickRecord line s).out = s.out := rfl

end

/-! ## The chain (R250) -/

theorem exec_scanTick (line : Half) (s : State) :
    exec (.scanTick line) s = .next (tickBranch line (tickRecord line s)) := rfl

theorem exec_scanTick_of_hit {s : State} {line : Half}
    (h : s.cfg.rasterEnable = true ∧ (line.toNat : Int) = s.rasterIrqLine) :
    exec (.scanTick line) s = .next (tickRaster line (tickRecord line s)) := by
  have hhit : rasterHit (tickRecord line s) line = true := (rasterHit_iff _ _).mpr h
  rw [exec_scanTick, tickBranch, if_pos hhit]

/-- The chain after a raster branch that does not take the line. -/
theorem exec_scanTick_of_miss {s : State} {line : Half}
    (h : ¬ (s.cfg.rasterEnable = true ∧ (line.toNat : Int) = s.rasterIrqLine)) :
    exec (.scanTick line) s = .next (
      if line = 248 then tickVblank (tickRecord line s)
      else if line = 255 then tickEndOfFrame (tickRecord line s)
      else if line = 250 ∧ s.cfg.quirkEovb250 = true then (tickRecord line s).raiseIrq .endOfVblank
      else tickRecord line s) := by
  have hmiss : ¬ rasterHit (tickRecord line s) line = true := mt (rasterHit_iff _ _).mp h
  simp only [exec_scanTick, tickBranch, if_neg hmiss, beq_iff_eq, Bool.and_eq_true, tickRecord_cfg]

/-- A trigger line that is not the line of the tick, written the way round the tick compares it. -/
theorem not_hit_of_line {s : State} {line : Half} {l : Int} (hl : (line.toNat : Int) = l)
    (h : ¬ (s.cfg.rasterEnable = true ∧ s.rasterIrqLine = l)) :
    ¬ (s.cfg.rasterEnable = true ∧ (line.toNat : Int) = s.rasterIrqLine) :=
  fun ⟨hen, hline⟩ => h ⟨hen, hline.symm.trans hl⟩

/-! ## The tick commands -/

/-- Settles O30: no branch writes the two fields the tick has recorded. -/
theorem ticksRecordLineAndActivity : Obligations.TicksRecordLineAndActivity := by
  intro s line
  refine ⟨_, exec_scanTick line s, ?_⟩
  obtain ⟨-, h⟩ | ⟨-, -, h⟩ | ⟨-, -, h⟩ | ⟨-, -, -, h⟩ | ⟨-, -, -, -, h⟩ := tickBranch_cases line (tickRecord line s)
  · rw [h, tickRaster_rs]; exact ⟨rfl, rfl⟩
  · rw [h, tickVblank_rs]; exact ⟨rfl, rfl⟩
  · rw [h, tickEndOfFrame_rs]; exact ⟨rfl, rfl⟩
  · rw [h, State.raiseIrq_rs]; exact ⟨rfl, rfl⟩
  · rw [h]; exact ⟨rfl, rfl⟩

/-- Settles O31: the raster branch, on the state with the tick recorded. -/
theorem rasterTickRedrawsThroughTriggerLine : Obligations.RasterTickRedrawsThroughTriggerLine := by
  intro s line hen hline
  refine ⟨_, exec_scanTick_of_hit ⟨hen, hline⟩, ?flag, ?start, tickRaster_out line _, ?frame⟩
  case flag => rw [tickRaster_rs, tickRecord_rs]
  case start => rw [tickRaster_rs]
  case frame => exact partialRefresh_tick_frame ..

/-- Settles O32: the vertical-blank branch, on the state with the tick recorded. -/
theorem vblankTickRedrawsAndRaises : Obligations.VblankTickRedrawsAndRaises := by
  intro s hother
  refine ⟨tickVblank (tickRecord 248 s), ?runs, ?flag, ?start, tickVblank_out _, ?frame⟩
  case runs => rw [exec_scanTick_of_miss (not_hit_of_line rfl hother), if_pos rfl]
  case flag => rw [tickVblank_rs]
  case start => rw [tickVblank_rs]
  case frame => exact partialRefresh_tick_frame ..

/-- Settles O33: line 255 is the third test of the chain. -/
theorem endOfFrameTickClears : Obligations.EndOfFrameTickClears := by
  intro s hother
  rw [exec_scanTick_of_miss (not_hit_of_line rfl hother), if_neg (by decide), if_pos rfl]
  rfl

/-- Settles O34: line 250 fails the tests of the other branches, and the flag opens the fourth. -/
theorem quirkTickRaisesOnly : Obligations.QuirkTickRaisesOnly := by
  intro s hquirk hother
  rw [exec_scanTick_of_miss (not_hit_of_line rfl hother), if_neg (by decide), if_neg (by decide), if_pos ⟨rfl, hquirk⟩]
  rfl

/-- Settles O35: all four tests of the chain fail. -/
theorem otherTicksOnlyRecord : Obligations.OtherTicksOnlyRecord := by
  intro s line hother hvblank hend hquirk
  rw [exec_scanTick_of_miss hother, if_neg hvblank, if_neg hend, if_neg hquirk]
  rfl

/-! ## `STATUS_RD` and `FRAME_START` (R260, R261) -/

theorem statusByte_eq (vblank : Bool) : statusByte vblank = if vblank then 0x01 else 0x00 := by
  cases vblank <;> rfl

/-- Settles O36: the status byte has the flag in bit 0. -/
theorem statusReadShowsVblank : Obligations.StatusReadShowsVblank := by
  intro s
  rw [exec, execStatusRd, statusByte_eq, State.respond]

/-- Settles O37: the command writes the raster state of a frame top. -/
theorem frameStartResetsRasterState : Obligations.FrameStartResetsRasterState := fun _ => rfl

/-! ## The bands of a frame (R259) -/

theorem coverCount_append (bands more : List (Int × Int)) (n : Int) :
    coverCount (bands ++ more) n = coverCount bands n + coverCount more n := by
  simp only [coverCount, List.filter_append, List.length_append]

theorem coverCount_nil (n : Int) : coverCount [] n = 0 := rfl

theorem coverCount_band (a b n : Int) : coverCount [(a, b)] n = if a ≤ n ∧ n < b then 1 else 0 := by
  simp only [coverCount, List.filter_cons, List.filter_nil, Bool.and_eq_true, decide_eq_true_eq]
  split <;> rfl

theorem tickBands_cons (s : State) (line : Half) (lines : List Half) :
    tickBands s (line :: lines) =
      (tickBand s line).toList ++ tickBands (tickBranch line (tickRecord line s)) lines := rfl

/-- One tick, as the bands see it: the band it hands over and where the next band starts. -/
theorem tickBand_cases (s : State) (line : Half) :
    (tickBand s line = some ((s.rs.lastRedrawnLine.toNat : Int), (line.toNat : Int) + 1) ∧
      (tickBranch line (tickRecord line s)).rs.lastRedrawnLine = line + 1) ∨
    (line = 248 ∧ tickBand s line = some ((s.rs.lastRedrawnLine.toNat : Int), 248) ∧
      (tickBranch line (tickRecord line s)).rs.lastRedrawnLine = 248) ∨
    (line = 255 ∧ tickBand s line = none) ∨
    (line ≠ 248 ∧ tickBand s line = none ∧
      (tickBranch line (tickRecord line s)).rs.lastRedrawnLine = s.rs.lastRedrawnLine) := by
  by_cases hhit : s.cfg.rasterEnable = true ∧ (line.toNat : Int) = s.rasterIrqLine
  · have hnext := Host.Outcome.next.inj (exec_scanTick_of_hit hhit)
    exact .inl ⟨if_pos hhit, by rw [hnext, tickRaster_rs]⟩
  · have hnext := Host.Outcome.next.inj (exec_scanTick_of_miss hhit)
    by_cases hvblank : line = 248
    · subst hvblank
      rw [if_pos rfl] at hnext
      exact .inr (.inl ⟨rfl, if_neg hhit, by rw [hnext, tickVblank_rs]⟩)
    · have hnone : tickBand s line = none := by
        rw [tickBand, if_neg hhit, if_neg (by bv_omega)]
      by_cases hend : line = 255
      · exact .inr (.inr (.inl ⟨hend, hnone⟩))
      · rw [if_neg hvblank, if_neg hend] at hnext
        refine .inr (.inr (.inr ⟨hvblank, hnone, ?_⟩))
        rw [hnext]
        split
        · rw [State.raiseIrq_rs]; rfl
        · rfl

/-- Where the next band may start when the tick of line `k` is due: nowhere past `k` up to line 248, and past the
lines of the picture from then to the end of the frame. -/
def State.BandStartDue (s : State) (k : Nat) : Prop :=
  (k ≤ 248 → s.rs.lastRedrawnLine.toNat ≤ k) ∧ (248 < k → k < 256 → 248 ≤ s.rs.lastRedrawnLine.toNat)

/-- How often line `n` is still to be covered by the ticks from line `k` on. -/
def State.coverDue (s : State) (k : Nat) (n : Int) : Nat :=
  if k ≤ 248 ∧ (s.rs.lastRedrawnLine.toNat : Int) ≤ n then 1 else 0

theorem tick_keeps_bandStartDue {s : State} {k : Nat} (hk : k < 256) (h : s.BandStartDue k) :
    (tickBranch (BitVec.ofNat 16 k) (tickRecord (BitVec.ofNat 16 k) s)).BandStartDue (k + 1) := by
  unfold State.BandStartDue at h ⊢
  obtain ⟨-, hstart⟩ | ⟨hline, -, hstart⟩ | ⟨hline, -⟩ | ⟨hline, -, hstart⟩ := tickBand_cases s (BitVec.ofNat 16 k)
  · rw [hstart]; bv_omega
  · rw [hstart]; bv_omega
  · bv_omega
  · rw [hstart]; bv_omega

/-- The band of a tick covers what is due before the tick and no longer due after it: a band ends where the next one
starts, and the tick of line 248 leaves no line of the picture due. -/
theorem coverCount_tickBand {s : State} {k : Nat} (hk : k < 256) (h : s.BandStartDue k) {n : Int} (hn : n < 248) :
    coverCount (tickBand s (BitVec.ofNat 16 k)).toList n +
      (tickBranch (BitVec.ofNat 16 k) (tickRecord (BitVec.ofNat 16 k) s)).coverDue (k + 1) n = s.coverDue k n := by
  unfold State.BandStartDue at h
  unfold State.coverDue
  obtain ⟨hband, hstart⟩ | ⟨hline, hband, hstart⟩ | ⟨hline, hband⟩ | ⟨hline, hband, hstart⟩ :=
    tickBand_cases s (BitVec.ofNat 16 k)
  · rw [hband, Option.toList_some, coverCount_band, hstart]
    split_ifs <;> bv_omega
  · rw [hband, Option.toList_some, coverCount_band, hstart]
    split_ifs <;> bv_omega
  · rw [hband, Option.toList_none, coverCount_nil]
    split_ifs <;> bv_omega
  · rw [hband, Option.toList_none, coverCount_nil, hstart]
    split_ifs <;> bv_omega

/-- The ticks from line `k` to the end of the frame cover what is due, by induction on how many they are. -/
theorem coverCount_tickBands (m : Nat) {s : State} {k : Nat} (hk : k + m = 256) (h : s.BandStartDue k) {n : Int}
    (hn : n < 248) : coverCount (tickBands s ((List.range' k m).map (BitVec.ofNat 16))) n = s.coverDue k n := by
  induction m generalizing s k with
  | zero => rw [State.coverDue, if_neg (by omega)]; rfl
  | succ m ih =>
    have hlt : k < 256 := by omega
    rw [List.range'_succ, List.map_cons, tickBands_cons, coverCount_append,
      ih (by omega) (tick_keeps_bandStartDue hlt h), coverCount_tickBand hlt h hn]

/-- Settles O38: at the frame start every line of the picture is due once. -/
theorem frameBandsCoverEachLineOnce : Obligations.FrameBandsCoverEachLineOnce := by
  intro s n hn0 hn
  have htop : State.BandStartDue { s with rs := RasterState.top } 0 := ⟨fun _ => le_rfl, fun h => absurd h (by decide)⟩
  rw [frameLines, List.range_eq_range', coverCount_tickBands 256 rfl htop hn]
  exact if_pos ⟨by decide, hn0⟩

end Sys2Proof.Machine
end

section
/-! PROOF. Outputs of a step (`60_exceptions.md`): no step faults, a step raises at most one request, and only the three
reads respond; the vectors and codes of the requests. -/

namespace Sys2Proof.Machine

/-! ## No fault (R270) -/

/-- Settles O8: every command answers a next state, and so do waiting and `RESET`. -/
theorem noStepFaults : Obligations.NoStepFaults := by
  intro s
  cases hport : s.port with
  | nil => exact ⟨s, step_of_port_nil hport⟩
  | cons e rest =>
    cases e with
    | command w =>
      obtain ⟨t, ht, -⟩ := exec_next_cfg (decode w) (s.beginCommand rest)
      exact ⟨t, (step_of_port_command hport).trans ht⟩
    | reset => exact ⟨_, step_of_port_reset hport⟩

/-! ## Requests and responses (R276, R278) -/

/-- A tick raises at most one request: the branches of the chain exclude each other. -/
theorem tickBranch_irqs (line : Half) (s : State) :
    (tickBranch line s).out.irqs = s.out.irqs ∨ ∃ src, (tickBranch line s).out.irqs = s.out.irqs ++ [src] := by
  obtain ⟨-, h⟩ | ⟨-, -, h⟩ | ⟨-, -, h⟩ | ⟨-, -, -, h⟩ | ⟨-, -, -, -, h⟩ := tickBranch_cases line s
  · exact .inr ⟨.raster, by rw [h, tickRaster_out]⟩
  · exact .inr ⟨.vblank, by rw [h, tickVblank_out]⟩
  · exact .inl (by rw [h, tickEndOfFrame_out])
  · exact .inr ⟨.endOfVblank, by rw [h, State.raiseIrq_out]⟩
  · exact .inl (by rw [h])

/-- A command appends at most one request (R278). -/
theorem exec_irqs {i : Instr} {s t : State} (h : exec i s = .next t) :
    t.out.irqs = s.out.irqs ∨ ∃ src, t.out.irqs = s.out.irqs ++ [src] := by
  cases i with
  | scanTick line =>
    obtain rfl := Host.Outcome.next.inj h
    exact tickBranch_irqs line (tickRecord line s)
  | sprctlWr offset value =>
    obtain rfl := Host.Outcome.next.inj h
    cases reg9OfOffset offset with
    | none => exact .inl rfl
    | some j =>
      dsimp only
      split
      · exact .inr ⟨_, congrArg (·.irqs) (spriteSwap_out true (s.setSpriteReg j value))⟩
      · exact .inl rfl
  | sprbufTrig offset value =>
    rw [exec_sprbufTrig] at h
    obtain rfl := Host.Outcome.next.inj h
    split
    · exact .inr ⟨_, congrArg (·.irqs) (spriteSwap_out false s)⟩
    · exact .inl rfl
  | _ =>
    obtain ⟨-, -, -, -, -, -, -, -, -, -, -, hirqs, -⟩ := onlyNamedWritersChangeEachComponent _ s t h
    exact .inl (hirqs rfl rfl rfl)

/-- A command that starts with no response gives one exactly when it is a read (`30_encoding.md` R97). -/
theorem exec_response_isSome {i : Instr} {s t : State} (hnone : s.out.response = none) (h : exec i s = .next t) :
    t.out.response.isSome = responds i := by
  cases hi : responds i with
  | false =>
    obtain ⟨-, -, -, -, -, -, -, -, -, -, -, -, hkeep⟩ := onlyNamedWritersChangeEachComponent i s t h
    rw [hkeep hi, hnone, Option.isSome_none]
  | true =>
    cases i with
    | vramRd | sprRd | statusRd =>
      obtain rfl := Host.Outcome.next.inj h
      rfl
    | _ => cases hi

/-- Settles O57: a command begins with an empty output. -/
theorem stepOutputIsBounded : Obligations.StepOutputIsBounded := by
  intro s t w rest hport h
  rw [step_of_port_command hport] at h
  refine ⟨?_, exec_response_isSome rfl h⟩
  obtain hirqs | ⟨src, hirqs⟩ := exec_irqs h
  · rw [hirqs]; exact Nat.zero_le 1
  · rw [hirqs]; exact Nat.le_refl 1

/-- Settles O60: the vector and the code source by source. -/
theorem requestVectorsAndCodes : Obligations.RequestVectorsAndCodes :=
  ⟨fun _ => ⟨rfl, rfl, rfl, rfl⟩, rfl, rfl, rfl, rfl⟩

end Sys2Proof.Machine
end

section
/-! PROOF. `RESET` and the idle port (`70_reset_and_hazards.md` R300, R302): what each accessor reads of the reset
state. -/

namespace Sys2Proof.Machine

/-- Settles O7: the waiting case of `step`. -/
theorem emptyPortWaits : Obligations.EmptyPortWaits := fun _ => step_of_port_nil

section

variable (s : State)

theorem pfReg_resetPin (p : Playfield) (i : Fin 8) : (resetPin s).pfReg p i = 0 := by
  have hregs : (resetPin s).pfctl.get p = Vector.replicate 8 0 := PerPf.get_const _ p
  simp [State.pfReg, hregs]

theorem masterReg_resetPin (i : Fin 8) : (resetPin s).masterReg i = 0 := Vector.getElem_replicate i.isLt

theorem spriteReg_resetPin (i : Fin 9) : (resetPin s).spriteReg i = 0 := Vector.getElem_replicate i.isLt

theorem layerCtl_resetPin (p : Playfield) : (resetPin s).layerCtl p = LayerControl.reset := PerPf.get_const _ p

theorem cacheEntry_resetPin (L : Layer) (k : Nat) : (resetPin s).cacheEntry L k = TileEntry.zero :=
  congrArg (Cells.get TileEntry.zero · k) (PerLayer.get_const [] L)

theorem isDirty_resetPin (L : Layer) (k : Nat) : (resetPin s).isDirty L k = decide (k < L.tiles) :=
  DirtyBits.get_all L k

theorem scroll_resetPin (L : Layer) : (resetPin s).scroll.get L = ResolvedScroll.reset := PerLayer.get_const _ L

theorem rsx_resetPin (L : Layer) (r : Nat) : (resetPin s).rsx L r = 0 := by
  rw [State.rsx, scroll_resetPin]; rfl

end

/-- Settles O9, accessor by accessor; the memories and the framebuffer list no cell. -/
theorem resetPinEstablishesResetState : Obligations.ResetPinEstablishesResetState := by
  intro s rest hport
  refine ⟨_, step_of_port_reset hport, rfl, rfl, rfl, fun _ => rfl, fun _ => rfl, fun _ => rfl, pfReg_resetPin _,
    masterReg_resetPin _, spriteReg_resetPin _, layerCtl_resetPin _, rfl, rfl, cacheEntry_resetPin _, ?dirty, ?scroll,
    fun _ _ => rfl, rfl⟩
  case dirty =>
    intro L k hk
    rw [isDirty_resetPin, decide_eq_true hk]
  case scroll =>
    intro L
    rw [scroll_resetPin]
    exact ⟨rfl, rfl, rsx_resetPin _ L⟩

end Sys2Proof.Machine
end
